-- ==== Sys2Proof/Word.lean ====
section
/-! DEFINITION. The value types of the block (R10, R13, R48 to R54) and of the model's operation and stimulus words. -/

namespace Sys2Proof

/-- A DisplayValue field: 16-bit unsigned, every pattern legal (R48). -/
abbrev Value := BitVec 16

/-- A decimal digit 0..9 (R13, R49). The type cannot form the codes 10..15 (U2). -/
abbrev Digit := Fin 10

/-- The four encoder lines, bit 0 = a, bit 1 = b, bit 2 = c, bit 3 = d (R51). -/
abbrev Pattern := BitVec 4

/-- A global position 0..7: the left bank's thousands, hundreds, tens, ones, then the right bank's (R52). -/
abbrev Position := Fin 8

/-- One of the ten enable lines `en[0]`..`en[9]` (R6, R19). -/
abbrev EnableLine := Fin 10

/-- A keypad row. `Row` counts from 0 where the spec counts from 1: the spec's row r is `r - 1` here (`Row.number`). -/
abbrev Row := Fin 5

/-- A keypad column, counted from 0 where the spec counts from 1. -/
abbrev Column := Fin 2

/-- A button id 0..10: 0 the direct button, 1..10 the matrix buttons (R13, R54). Ids 11..15 cannot be formed. -/
abbrev ButtonId := Fin 11

/-- The model's operation word: bits 7..0 the operation id of R58, bits 39..8 the operand field (log 1). -/
abbrev OpWord := BitVec 40

/-- The stimulus word of R57: `rst, set_valid, set_left[15:0], set_right[15:0]`, `rst` in bit 33. -/
abbrev StimulusWord := BitVec 34

/-- The spec's number of a row, 1..5 (R10). -/
def Row.number (r : Row) : Nat := r.val + 1

/-- The spec's number of a column, 1..2 (R10). -/
def Column.number (c : Column) : Nat := c.val + 1

/-- A DisplayValue: what one SET carries and one take returns (R20, R39). -/
structure DisplayValue where
  left : Value
  right : Value
deriving DecidableEq, Repr, Inhabited

/-- The four digits of one bank, thousands first (R52, R64). -/
structure Bank where
  thousands : Digit
  hundreds : Digit
  tens : Digit
  ones : Digit
deriving DecidableEq, Repr, Inhabited

/-- The levels of the two column lines, `col[1]` and `col[2]` (R18, R53). -/
structure Columns where
  c1 : Bool
  c2 : Bool
deriving DecidableEq, Repr, Inhabited

end Sys2Proof
end

