-- ==== Sys2Proof/Syntax.lean ====
section
/-! DEFINITION. The operations of R58 as syntax, one constructor per row of spec/opcode_table.json, and the
environment's side: what it drives into one clock, and the statements of the test notation (R62, R63). -/

namespace Sys2Proof

/-- The operations of R58. What an operation reads from the input ports stands as its operand (log 1). -/
inductive Instr where
  /-- DECOMPOSE (0x01, R64): the operand `v`. -/
  | decompose (v : Value)
  /-- ENCODE (0x11, R67): a 4-bit code at the encoder's input; only 0..9 are digits (R49, U1). -/
  | encode (code : BitVec 4)
  /-- ENCODE_BLANK (0x12, R68): the blank sentinel. -/
  | encodeBlank
  /-- SET (0x21, R73): `in.set_left`, `in.set_right`. -/
  | set (left right : Value)
  /-- TRY_TAKE (0x22, R74). -/
  | tryTake
  /-- SET_TAKE (0x23, R75): `in.set_left`, `in.set_right`. -/
  | setTake (left right : Value)
  /-- SLOT_HOLD (0x24, R76). -/
  | slotHold
  /-- MX_DRAIN (0x31, R83). -/
  | mxDrain
  /-- MX_SETUP (0x32, R84). -/
  | mxSetup
  /-- MX_DWELL (0x33, R85). -/
  | mxDwell
  /-- SC_DIRECT (0x41, R93): the level of `in.direct`. -/
  | scDirect (direct : Bool)
  /-- SC_ROW_ON (0x42, R94): the levels of `in.col[1]` and `in.col[2]`. -/
  | scRowOn (col1 col2 : Bool)
  /-- SC_EVAL1 (0x43, R95). -/
  | scEval1
  /-- SC_EVAL2 (0x44, R96). -/
  | scEval2
  /-- SC_SETTLE (0x45, R97). -/
  | scSettle
  /-- SC_IDLE (0x46, R98). -/
  | scIdle
  /-- EDGE (0x47, R91): a button id and its sample, 1 = pressed. -/
  | edge (b : ButtonId) (s : Bool)
  /-- RESET (0x71, R121). -/
  | reset
deriving DecidableEq, Repr

/-- Where the key levels of a clock come from: given outright (R18, R118: free inputs of the block), or from the
ideal matrix of R118 with the given pressed buttons and the given level of the direct line. -/
inductive Keys where
  | levels (direct : Bool) (col : Columns)
  | matrix (direct : Bool) (pressed : List (Row × Column))
deriving DecidableEq, Repr, Inhabited

/-- What the environment drives into one clock. -/
structure Stimulus where
  rst : Bool
  setValid : Bool
  setLeft : Value
  setRight : Value
  keys : Keys
deriving DecidableEq, Repr, Inhabited

/-- The levels on the input ports as sampled at a clock edge (R12, R18). -/
structure Input where
  rst : Bool
  setValid : Bool
  setLeft : Value
  setRight : Value
  col : Columns
  direct : Bool
deriving DecidableEq, Repr, Inhabited

/-- The statements of the test notation (R62, R63). EXPECT drives nothing and is no statement here: it is a
proposition about the state that a program has reached. `eval` is the combinational evaluation of R62. -/
inductive Stmt where
  | reset
  | set (left right : Value)
  | tick (n : Nat)
  | keys (direct : Bool) (pressed : List (Row × Column))
  | cycle
  | scan
  | setHold (left right : Value) (n : Nat)
  | eval (i : Instr)
deriving DecidableEq, Repr

end Sys2Proof
end

