-- ==== Sys2Proof/Config.lean ====
section
/-! DEFINITION. The build-time parameters of R7 and R8, and the values the spec leaves free. -/

namespace Sys2Proof

/-- The parameters of R7 and R8 that a rule of the block reads. They are fixed for a model instance (R17): `State`
holds them so that a statement about every state holds for every choice of them (log 7). -/
structure Config where
  ticksPerUnit : Nat
  dwellUnits : Nat
  settleUnits : Nat
  setupTicks : Nat
  rowSetupTicks : Nat
  scanIdleTicks : Nat
  directPressedLevel : Bool
deriving DecidableEq, Repr, Inhabited

/-- DWELL_TICKS of R9. -/
def Config.dwellTicks (c : Config) : Nat := c.dwellUnits * c.ticksPerUnit

/-- SETTLE_TICKS of R9. -/
def Config.settleTicks (c : Config) : Nat := c.settleUnits * c.ticksPerUnit

/-- The constraint column of R7: every duration is at least 1, but for SCAN_IDLE_TICKS. -/
def Config.wf (c : Config) : Bool :=
  decide (1 ≤ c.ticksPerUnit) && decide (1 ≤ c.dwellUnits) && decide (1 ≤ c.settleUnits)
    && decide (1 ≤ c.setupTicks) && decide (1 ≤ c.rowSetupTicks)

/-- The default column of R7. DIRECT_PRESSED_LEVEL is OPEN (R8): 1 is the value of the spec's test vectors.
DESIGN CHOICE (log 7), unsafe for a claim that rests on it. -/
def Config.default : Config where
  ticksPerUnit := 1
  dwellUnits := 2
  settleUnits := 1
  setupTicks := 1
  rowSetupTicks := 1
  scanIdleTicks := 0
  directPressedLevel := true

/-- The input levels of a clock for which the environment has queued none: free under no law (R113, R118, U4, U5,
U9, U10), one value per clock number (log 5). -/
opaque Config.freeInput : Nat → Input

/-- BUTTON_NAME of R8: the names of the ten matrix buttons, which the source does not give (N6, log 15). -/
opaque Config.buttonName : Nat → String

end Sys2Proof
end

