-- ==== Sys2Proof/WellFormed.lean ====
section
/-! DEFINITION. Which instructions are well-formed: those whose operands the spec gives a meaning. -/

namespace Sys2Proof

/-- An operation is well-formed when its operands are legal. Every operand but one is legal by its type: the
encoder's input code must be a digit, 0..9 (R49, R60, U1). -/
def Instr.wf (i : Instr) : Bool :=
  match i with
  | .decompose _ => true
  | .encode code => decide (code.toNat < 10)
  | .encodeBlank => true
  | .set _ _ => true
  | .tryTake => true
  | .setTake _ _ => true
  | .slotHold => true
  | .mxDrain => true
  | .mxSetup => true
  | .mxDwell => true
  | .scDirect _ => true
  | .scRowOn _ _ => true
  | .scEval1 => true
  | .scEval2 => true
  | .scSettle => true
  | .scIdle => true
  | .edge _ _ => true
  | .reset => true

end Sys2Proof
end

