-- ==== Sys2Proof/Decode.lean ====
section
/-! DEFINITION. Operation words: the decoder, total and rejecting by name, then the encoder. The ids are those of
R58; where the operands stand is the model's (log 1), since the ids are "not a hardware encoding". Then the encoder's
5-bit input word (R50), the stimulus word (R57) and the event word (R55). -/

namespace Sys2Proof

/-- Why a word is no operation. -/
inductive DecodeError where
  /-- The low eight bits are no id of R58 (R60: "not operations"). -/
  | unknownOperation
  /-- A bit of the operand field that the operation does not use is 1 (log 1). -/
  | reservedOperandBits
  /-- A digit code 10..15 at the encoder's input (R50, R60, U1). -/
  | reservedDigitCode
  /-- A button id 11..15 (R54, R55). -/
  | reservedButtonId
deriving DecidableEq, Repr

/-- The operation id of a word. -/
def opIdOf (w : OpWord) : BitVec 8 := w.setWidth 8

/-- The operand field of a word. -/
def operandOf (w : OpWord) : BitVec 32 := w.extractLsb' 8 32

/-- An operation without operands: its operand field is 0. -/
def decodePlain (operand : BitVec 32) (i : Instr) : Except DecodeError Instr :=
  if operand = 0 then .ok i else .error .reservedOperandBits

/-- DECOMPOSE: `v` in the low 16 operand bits. -/
def decodeDecompose (operand : BitVec 32) : Except DecodeError Instr :=
  if operand.extractLsb' 16 16 = 0 then .ok (.decompose (operand.extractLsb' 0 16))
  else .error .reservedOperandBits

/-- ENCODE: the code in the low 4 operand bits (R50 with `blank = 0`). -/
def decodeEncode (operand : BitVec 32) : Except DecodeError Instr :=
  if operand.extractLsb' 4 28 = 0 then
    if (operand.extractLsb' 0 4).toNat < 10 then .ok (.encode (operand.extractLsb' 0 4))
    else .error .reservedDigitCode
  else .error .reservedOperandBits

/-- SC_DIRECT: the level of `direct` in operand bit 0. -/
def decodeScDirect (operand : BitVec 32) : Except DecodeError Instr :=
  if operand.extractLsb' 1 31 = 0 then .ok (.scDirect (operand.getLsbD 0))
  else .error .reservedOperandBits

/-- SC_ROW_ON: `col[1]` in operand bit 0, `col[2]` in operand bit 1. -/
def decodeScRowOn (operand : BitVec 32) : Except DecodeError Instr :=
  if operand.extractLsb' 2 30 = 0 then .ok (.scRowOn (operand.getLsbD 0) (operand.getLsbD 1))
  else .error .reservedOperandBits

/-- EDGE: the event word's layout (R55), the id in operand bits 3..0, the sample in operand bit 4. -/
def decodeEdge (operand : BitVec 32) : Except DecodeError Instr :=
  if operand.extractLsb' 5 27 = 0 then
    if h : (operand.extractLsb' 0 4).toNat < 11 then
      .ok (.edge ⟨(operand.extractLsb' 0 4).toNat, h⟩ (operand.getLsbD 4))
    else .error .reservedButtonId
  else .error .reservedOperandBits

/-- The operation with the given id (R58) and operand field; SET and SET_TAKE carry `left` over `right` as the
stimulus word does (R57). -/
def decodeFields (id : Nat) (operand : BitVec 32) : Except DecodeError Instr :=
  match id with
  | 0x01 => decodeDecompose operand
  | 0x11 => decodeEncode operand
  | 0x12 => decodePlain operand .encodeBlank
  | 0x21 => .ok (.set (operand.extractLsb' 16 16) (operand.extractLsb' 0 16))
  | 0x22 => decodePlain operand .tryTake
  | 0x23 => .ok (.setTake (operand.extractLsb' 16 16) (operand.extractLsb' 0 16))
  | 0x24 => decodePlain operand .slotHold
  | 0x31 => decodePlain operand .mxDrain
  | 0x32 => decodePlain operand .mxSetup
  | 0x33 => decodePlain operand .mxDwell
  | 0x41 => decodeScDirect operand
  | 0x42 => decodeScRowOn operand
  | 0x43 => decodePlain operand .scEval1
  | 0x44 => decodePlain operand .scEval2
  | 0x45 => decodePlain operand .scSettle
  | 0x46 => decodePlain operand .scIdle
  | 0x47 => decodeEdge operand
  | 0x71 => decodePlain operand .reset
  | _ => .error .unknownOperation

/-- The decoder: total on every 40-bit word. -/
def decode (w : OpWord) : Except DecodeError Instr :=
  decodeFields (opIdOf w).toNat (operandOf w)

/-- The operation id of an instruction (R58, spec/opcode_table.json). -/
def Instr.opId (i : Instr) : BitVec 8 :=
  match i with
  | .decompose _ => 0x01
  | .encode _ => 0x11
  | .encodeBlank => 0x12
  | .set _ _ => 0x21
  | .tryTake => 0x22
  | .setTake _ _ => 0x23
  | .slotHold => 0x24
  | .mxDrain => 0x31
  | .mxSetup => 0x32
  | .mxDwell => 0x33
  | .scDirect _ => 0x41
  | .scRowOn _ _ => 0x42
  | .scEval1 => 0x43
  | .scEval2 => 0x44
  | .scSettle => 0x45
  | .scIdle => 0x46
  | .edge _ _ => 0x47
  | .reset => 0x71

/-- The operand field of an instruction (log 1). -/
def Instr.operand (i : Instr) : BitVec 32 :=
  match i with
  | .decompose v => (0 : BitVec 16) ++ v
  | .encode code => (0 : BitVec 28) ++ code
  | .encodeBlank => 0
  | .set left right => left ++ right
  | .tryTake => 0
  | .setTake left right => left ++ right
  | .slotHold => 0
  | .mxDrain => 0
  | .mxSetup => 0
  | .mxDwell => 0
  | .scDirect direct => (0 : BitVec 31) ++ BitVec.ofBool direct
  | .scRowOn col1 col2 => (0 : BitVec 30) ++ (BitVec.ofBool col2 ++ BitVec.ofBool col1)
  | .scEval1 => 0
  | .scEval2 => 0
  | .scSettle => 0
  | .scIdle => 0
  | .edge b s => (0 : BitVec 27) ++ (BitVec.ofBool s ++ BitVec.ofNat 4 b.val)
  | .reset => 0

/-- The encoder: the operation word of an instruction. -/
def encode (i : Instr) : OpWord := i.operand ++ i.opId

/-- The decoder on a word given as the opcode table numbers it: the low `nbits` bits of `w`, every higher bit 0. -/
def decodeTableWord (nbits w : Nat) : Option Instr :=
  (decode (BitVec.ofNat 40 (w % 2 ^ nbits))).toOption

/-- The encoder's input word of R50, `blank, code[3:0]` with `blank` in bit 4: blank whatever the code, else the
digit, else refused. -/
def decodeEncoderInput (w : BitVec 5) : Except DecodeError Instr :=
  if w.getLsbD 4 then .ok .encodeBlank
  else if (w.setWidth 4).toNat < 10 then .ok (.encode (w.setWidth 4))
  else .error .reservedDigitCode

/-- The stimulus of a clock from its word (R57); the key levels are not in the word. -/
def Stimulus.ofWord (w : StimulusWord) (keys : Keys) : Stimulus where
  rst := w.getLsbD 33
  setValid := w.getLsbD 32
  setLeft := w.extractLsb' 16 16
  setRight := w.extractLsb' 0 16
  keys := keys

/-- The stimulus word of a clock (R57). -/
def Stimulus.toWord (x : Stimulus) : StimulusWord :=
  BitVec.ofBool x.rst ++ (BitVec.ofBool x.setValid ++ (x.setLeft ++ x.setRight))

/-- The event word of R55, `evt_pressed, evt_id[3:0]`. -/
def eventWord (id : ButtonId) (pressed : Bool) : BitVec 5 :=
  BitVec.ofBool pressed ++ BitVec.ofNat 4 id.val

end Sys2Proof
end

