-- ==== Sys2Proof/Machine/State.lean ====
section
/-! DEFINITION. The state of the block: the registers of 10_state.md (R20 to R28), the build-time parameters, and the
model's own fields. Plain data; registers whose unreachable codes the spec names are typed so that these codes cannot be
formed (U2). -/

namespace Sys2Proof.Machine

open Sys2Proof

/-- `mx_phase` (R23). -/
inductive MxPhase where
  | drain
  | setup
  | dwell
deriving DecidableEq, Repr, Inhabited

/-- `sc_phase` (R26). -/
inductive ScPhase where
  | direct
  | rowOn
  | eval1
  | eval2
  | settle
  | idle
deriving DecidableEq, Repr, Inhabited

/-- The value mailbox (R20): `slot_pending`, `slot_left`, `slot_right`. -/
structure Mailbox where
  pending : Bool
  left : Value
  right : Value
deriving DecidableEq, Repr, Inhabited

/-- The digit file (R21): `digits[0..3]` the left bank, `digits[4..7]` the right bank. -/
structure DigitFile where
  left : Bank
  right : Bank
deriving DecidableEq, Repr, Inhabited

/-- The multiplexer's registers: the digit file (R21), the pattern latch `seg_reg` (R22), `mx_phase`, `mx_pos`,
`mx_timer` (R23). -/
structure Mux where
  digits : DigitFile
  seg : Pattern
  phase : MxPhase
  pos : Position
  timer : Nat
deriving DecidableEq, Repr, Inhabited

/-- The scanner's registers: the button-state file (R25), `sc_phase`, `sc_row`, `sc_timer`, `col_sample` (R26),
`sc_init` (R27) and the event registers `evt_v`, `evt_b`, `evt_p` (R28). -/
structure Scanner where
  btn : Vector Bool 11
  phase : ScPhase
  row : Row
  timer : Nat
  colSample : Columns
  init : Bool
  evtV : Bool
  evtB : ButtonId
  evtP : Bool
deriving DecidableEq, Repr

/-- What a value-returning operation answered (log 4): DECOMPOSE four digits, ENCODE and ENCODE_BLANK a pattern,
TRY_TAKE and SET_TAKE the taken value if any. -/
inductive OpResult where
  | nothing
  | digits (d : Bank)
  | pattern (p : Pattern)
  | taken (v : Option DisplayValue)
deriving DecidableEq, Repr, Inhabited

/-- The state. `slot`, `mx` and `sc` are the block's storage (R15 says it is all of it); `cfg` holds the build-time
parameters (R7, R8, R17). The rest is the model's own: the last answer `result` (log 4), the number `clock` of clock
edges (log 5), the queued inputs `stim` of the coming clocks (log 5) and the queued operation requests `ops` (log 2). -/
structure State where
  cfg : Config
  slot : Mailbox
  mx : Mux
  sc : Scanner
  result : OpResult
  clock : Nat
  stim : List Stimulus
  ops : List OpWord
deriving DecidableEq, Repr

/-- The reasons to stop with a fault: none. The block raises no exception and no operation has a failing case (R106). -/
inductive Fault where
deriving DecidableEq, Repr

/-- The reasons to refuse. None arises in a clock of the block; each is raised at the model's own interface. -/
inductive Refusal where
  /-- Raised by `exec` for an operation without a meaning. Safe. -/
  | notModelled (mnemonic : String)
  /-- Raised by a meaning that is requested in a state in which its selector (R58) does not hold, where the spec gives
  the operation no effect (log 3). Safe. -/
  | notSelected
  /-- Raised by ENCODE for a code 10..15, which the spec refuses (R60, R67, U1). Safe. -/
  | reservedDigitCode
  /-- Raised by the step for a requested word that is no operation (R60, log 2). Safe. -/
  | notAnOperation (reason : DecodeError)
deriving DecidableEq, Repr

/-- The outcome of a meaning or of a step. -/
abbrev Result := Host.Outcome State Fault Refusal

/-- The mailbox at reset (R34). -/
def Mailbox.reset : Mailbox := ⟨false, 0, 0⟩

/-- The multiplexer's registers at reset (R34). -/
def Mux.reset : Mux where
  digits := ⟨⟨0, 0, 0, 0⟩, ⟨0, 0, 0, 0⟩⟩
  seg := 0
  phase := .drain
  pos := 0
  timer := 0

/-- The scanner's registers at reset (R34); row index 0 is the spec's row 1. -/
def Scanner.reset : Scanner where
  btn := Vector.replicate 11 false
  phase := .direct
  row := 0
  timer := 0
  colSample := ⟨false, false⟩
  init := true
  evtV := false
  evtB := 0
  evtP := false

/-- The machine right after reset: every register as R34 says, the parameters at R7's defaults (log 7), nothing
queued by the environment (log 5) and nothing requested (log 2). -/
def State.reset : State where
  cfg := Config.default
  slot := Mailbox.reset
  mx := Mux.reset
  sc := Scanner.reset
  result := .nothing
  clock := 0
  stim := []
  ops := []

end Sys2Proof.Machine
end

