-- ==== Sys2Proof/Machine/Flags.lean ====
section
/-! DEFINITION. The combinational flags: the still-skipping flag and the shown positions (R24, R80), their order (R81),
and the codes of the sequencer phases (R59). The block has no status flags (R17). -/

namespace Sys2Proof.Machine

open Sys2Proof

/-- R80 at position 0: shown when the thousands digit is not zero. -/
def Bank.showsThousands (b : Bank) : Bool := decide (b.thousands ≠ 0)

/-- The still-skipping flag after position 0 (R24, R80). -/
def Bank.skipping (b : Bank) : Bool := !Bank.showsThousands b

/-- R80 at position 1: not shown when position 0 was skipped and the hundreds digit is zero. -/
def Bank.showsHundreds (b : Bank) : Bool := !(Bank.skipping b && decide (b.hundreds = 0))

/-- `digits[p]` (R21, R52). -/
def DigitFile.digit (d : DigitFile) (p : Position) : Digit :=
  match p with
  | 0 => d.left.thousands
  | 1 => d.left.hundreds
  | 2 => d.left.tens
  | 3 => d.left.ones
  | 4 => d.right.thousands
  | 5 => d.right.hundreds
  | 6 => d.right.tens
  | 7 => d.right.ones

/-- `shown(D, p)` (R80): each bank by its own flag. -/
def DigitFile.shown (d : DigitFile) (p : Position) : Bool :=
  match p with
  | 0 => Bank.showsThousands d.left
  | 1 => Bank.showsHundreds d.left
  | 2 => true
  | 3 => true
  | 4 => Bank.showsThousands d.right
  | 5 => Bank.showsHundreds d.right
  | 6 => true
  | 7 => true

/-- The eight global positions in the order in which a refresh cycle walks them (R81). -/
def allPositions : List Position := [0, 1, 2, 3, 4, 5, 6, 7]

/-- `first_shown(D)` (R81): the least shown position. Position 2 is always shown, so the default is never taken. -/
def DigitFile.firstShown (d : DigitFile) : Position :=
  (allPositions.find? fun p => d.shown p).getD 2

/-- `next_shown(D, p)` (R81): the least shown position above `p`, if any. -/
def DigitFile.nextShown (d : DigitFile) (p : Position) : Option Position :=
  allPositions.find? fun q => decide (p < q) && d.shown q

/-- The code of `mx_phase` (R59). -/
def MxPhase.code (p : MxPhase) : BitVec 2 :=
  match p with
  | .drain => 0
  | .setup => 1
  | .dwell => 2

/-- The code of `sc_phase` (R59). -/
def ScPhase.code (p : ScPhase) : BitVec 3 :=
  match p with
  | .direct => 0
  | .rowOn => 1
  | .eval1 => 2
  | .eval2 => 3
  | .settle => 4
  | .idle => 5

/-- The code of `sc_row` (R59): the spec's row number. -/
def rowCode (r : Row) : BitVec 3 := BitVec.ofNat 3 (Row.number r)

end Sys2Proof.Machine
end

