-- ==== Sys2Proof/Machine/Operands.lean ====
section
/-! DEFINITION. The operand forms: button ids (R54), the direct line's polarity (R8, R93), and the ideal keypad matrix
(R118). -/

namespace Sys2Proof.Machine

open Sys2Proof

/-- `id(direct) = 0` (R54). -/
def directButton : ButtonId := 0

/-- `id(r, c) = 2*(r - 1) + c` (R54), with both counted from 0 here. -/
def matrixButton (r : Row) (c : Column) : ButtonId := ⟨2 * r.val + (c.val + 1), by omega⟩

/-- The sample of the direct button from the level of its line (R93). -/
def directSample (cfg : Config) (level : Bool) : Bool := decide (level = cfg.directPressedLevel)

/-- The ideal matrix (R118): a column is high iff a pressed button of it lies in a row that is high. -/
def idealColumn (rowHigh : Row → Bool) (pressed : List (Row × Column)) (c : Column) : Bool :=
  pressed.any fun k => rowHigh k.1 && decide (k.2 = c)

/-- The level of `direct` that the environment gives. -/
def Keys.direct (k : Keys) : Bool :=
  match k with
  | .levels d _ => d
  | .matrix d _ => d

/-- The column levels that the environment gives while the rows stand at the given levels. -/
def Keys.columns (k : Keys) (rowHigh : Row → Bool) : Columns :=
  match k with
  | .levels _ c => c
  | .matrix _ pressed => ⟨idealColumn rowHigh pressed 0, idealColumn rowHigh pressed 1⟩

/-- The input ports of a clock (R18) from what the environment drives and the row lines of the state. -/
def sampleStimulus (x : Stimulus) (rowHigh : Row → Bool) : Input where
  rst := x.rst
  setValid := x.setValid
  setLeft := x.setLeft
  setRight := x.setRight
  col := Keys.columns x.keys rowHigh
  direct := Keys.direct x.keys

end Sys2Proof.Machine
end

