-- ==== Sys2Proof/Machine/Ops.lean ====
section
/-! DEFINITION. The shared operations over the registers: the pure functions `decompose` (R64) and `encode` (R67), the
mailbox step (R72), the strobe of a position (R83, R85), the edge detector (R91, R92) and the reset of all registers
(R121). The block has no memory (R35) and takes no exception (R106, R109): RESET is its only transfer (R110). -/

namespace Sys2Proof.Machine

open Sys2Proof

/-- A meaning guarded by its selector (R58): where the selector does not hold the operation is not performed, and the
spec gives it no effect (log 3). -/
def whenSelected (selector : Prop) [Decidable selector] (t : State) : Result :=
  if selector then .next t else .refused .notSelected

/-- The digit of a natural number below 10. -/
def digitOf (n : Nat) : Digit := Fin.ofNat 10 n

/-- `decompose(v)` (R64). -/
def decomposeValue (v : Value) : Bank :=
  if v.toNat = 0 then ⟨0, 0, 0, 0⟩
  else if 9999 ≤ v.toNat then ⟨9, 9, 9, 9⟩
  else
    { thousands := digitOf (v.toNat / 1000)
      hundreds := digitOf (v.toNat / 100 % 10)
      tens := digitOf (v.toNat / 10 % 10)
      ones := digitOf (v.toNat % 10) }

/-- `encode(d)` on a digit: the table of R67. -/
def encodeDigit (d : Digit) : Pattern :=
  match d with
  | 0 => 0b0000
  | 1 => 0b0001
  | 2 => 0b0010
  | 3 => 0b0011
  | 4 => 0b0100
  | 5 => 0b0101
  | 6 => 0b0110
  | 7 => 0b0111
  | 8 => 0b1000
  | 9 => 0b1001

/-- `encode(blank)` (R68). -/
def encodeBlankPattern : Pattern := 0b0000

/-- The digit that a 4-bit code stands for (R49), none for the codes 10..15. -/
def digitOfCode (code : BitVec 4) : Option Digit :=
  if h : code.toNat < 10 then some ⟨code.toNat, h⟩ else none

/-- The value a take returns, read before any write of the edge (R72). -/
def Mailbox.taken (m : Mailbox) : Option DisplayValue :=
  if m.pending then some ⟨m.left, m.right⟩ else none

/-- The mailbox's next state (R72), from whether this clock takes and what it sets. -/
def Mailbox.next (m : Mailbox) (take : Bool) (set : Option DisplayValue) : Mailbox :=
  match set with
  | some v => ⟨true, v.left, v.right⟩
  | none => { m with pending := m.pending && !take }

/-- Enter SETUP for the position `p`: its pattern goes to the lines, every enable low (R83, R85). -/
def Mux.strobe (m : Mux) (cfg : Config) (p : Position) : Mux :=
  { m with
    pos := p
    seg := encodeDigit (m.digits.digit p)
    timer := cfg.setupTicks - 1
    phase := .setup }

/-- The digit file after a drain (R83): both fields of the taken value decomposed, else the previous digits. -/
def DigitFile.drained (d : DigitFile) (taken : Option DisplayValue) : DigitFile :=
  match taken with
  | some v => ⟨decomposeValue v.left, decomposeValue v.right⟩
  | none => d

/-- The multiplexer's registers after MX_DRAIN (R83). -/
def Mux.drain (m : Mux) (cfg : Config) (taken : Option DisplayValue) : Mux :=
  Mux.strobe { m with digits := m.digits.drained taken } cfg (m.digits.drained taken).firstShown

/-- The multiplexer's registers after MX_SETUP (R84). -/
def Mux.setup (m : Mux) (cfg : Config) : Mux :=
  if 0 < m.timer then { m with timer := m.timer - 1 }
  else { m with phase := .dwell, timer := cfg.dwellTicks - 1 }

/-- The multiplexer's registers after MX_DWELL (R85). -/
def Mux.dwell (m : Mux) (cfg : Config) : Mux :=
  if 0 < m.timer then { m with timer := m.timer - 1 }
  else
    match m.digits.nextShown m.pos with
    | some q => m.strobe cfg q
    | none => { m with phase := .drain }

/-- `emit(b, s)` (R92). -/
def Scanner.emit (sc : Scanner) (b : ButtonId) (s : Bool) : Scanner :=
  { sc with evtV := true, evtB := b, evtP := s }

/-- `evt_v <- 0`. -/
def Scanner.noEvent (sc : Scanner) : Scanner := { sc with evtV := false }

/-- `btn[b] <- s`. -/
def Scanner.setBtn (sc : Scanner) (b : ButtonId) (s : Bool) : Scanner :=
  { sc with btn := sc.btn.set b.val s b.isLt }

/-- `EDGE(b, s)` (R91). -/
def Scanner.edge (sc : Scanner) (b : ButtonId) (s : Bool) : Scanner :=
  if sc.init then (sc.setBtn b s).noEvent
  else if s ≠ sc.btn[b] then (sc.setBtn b s).emit b s
  else sc.noEvent

/-- Start the strobe of row `r` (R93, R97). -/
def Scanner.strobe (sc : Scanner) (cfg : Config) (r : Row) : Scanner :=
  { sc with row := r, timer := cfg.rowSetupTicks - 1, phase := .rowOn }

/-- The scanner's registers after SC_DIRECT (R93). -/
def Scanner.direct (sc : Scanner) (cfg : Config) (level : Bool) : Scanner :=
  (sc.edge directButton (directSample cfg level)).strobe cfg 0

/-- The scanner's registers after SC_ROW_ON (R94). -/
def Scanner.rowOn (sc : Scanner) (col : Columns) : Scanner :=
  if 0 < sc.timer then { sc.noEvent with timer := sc.timer - 1 }
  else { sc.noEvent with colSample := col, phase := .eval1 }

/-- The scanner's registers after SC_EVAL1 (R95). -/
def Scanner.eval1 (sc : Scanner) : Scanner :=
  { sc.edge (matrixButton sc.row 0) sc.colSample.c1 with phase := .eval2 }

/-- The scanner's registers after SC_EVAL2 (R96). -/
def Scanner.eval2 (sc : Scanner) (cfg : Config) : Scanner :=
  { sc.edge (matrixButton sc.row 1) sc.colSample.c2 with timer := cfg.settleTicks - 1, phase := .settle }

/-- The end of a scan cycle (R97): the initialising cycle is over. -/
def Scanner.endCycle (sc : Scanner) (cfg : Config) : Scanner :=
  if 0 < cfg.scanIdleTicks then { sc with init := false, timer := cfg.scanIdleTicks - 1, phase := .idle }
  else { sc with init := false, phase := .direct }

/-- The scanner's registers after SC_SETTLE (R97); row index 4 is the spec's row 5. -/
def Scanner.settle (sc : Scanner) (cfg : Config) : Scanner :=
  if 0 < sc.timer then { sc.noEvent with timer := sc.timer - 1 }
  else if h : sc.row.val < 4 then sc.noEvent.strobe cfg ⟨sc.row.val + 1, by omega⟩
  else sc.noEvent.endCycle cfg

/-- The scanner's registers after SC_IDLE (R98). -/
def Scanner.idle (sc : Scanner) : Scanner :=
  if 0 < sc.timer then { sc.noEvent with timer := sc.timer - 1 }
  else { sc.noEvent with phase := .direct }

/-- Every register at its reset value (R34, R121). The parameters (R17) and the model's own fields stay. -/
def State.resetRegisters (s : State) : State :=
  { s with slot := Mailbox.reset, mx := Mux.reset, sc := Scanner.reset }

end Sys2Proof.Machine
end

