-- ==== Sys2Proof/Machine/Decomposer.lean ====
section
/-! DEFINITION. The BCD decomposer (40_decomposer.md). -/

namespace Sys2Proof.Machine

open Sys2Proof

/-- DECOMPOSE (R64): the four digits are answered; no register is written. -/
def execDecompose (v : Value) (s : State) : Result :=
  .next { s with result := .digits (decomposeValue v) }

end Sys2Proof.Machine
end

