-- ==== Sys2Proof/Machine/Encoder.lean ====
section
/-! DEFINITION. The segment encoder (41_segment_encoder.md). -/

namespace Sys2Proof.Machine

open Sys2Proof

/-- ENCODE (R67): the pattern is answered; no register is written. A code 10..15 is refused (U1). -/
def execEncode (code : BitVec 4) (s : State) : Result :=
  match digitOfCode code with
  | some d => .next { s with result := .pattern (encodeDigit d) }
  | none => .refused .reservedDigitCode

/-- ENCODE_BLANK (R68): the blank pattern is answered; no register is written. -/
def execEncodeBlank (s : State) : Result :=
  .next { s with result := .pattern encodeBlankPattern }

end Sys2Proof.Machine
end

