-- ==== Sys2Proof/Machine/KeypadScanner.lean ====
section
/-! DEFINITION. The edge detector and the six steps of the keypad scanner (44_keypad_scanner.md). -/

namespace Sys2Proof.Machine

open Sys2Proof

/-- EDGE (R91): the compare-and-update sub-operation alone. R91 names no selector for it. -/
def execEdge (b : ButtonId) (sample : Bool) (s : State) : Result :=
  .next { s with sc := s.sc.edge b sample }

/-- SC_DIRECT (R93). -/
def execScDirect (direct : Bool) (s : State) : Result :=
  whenSelected (s.sc.phase = .direct) { s with sc := s.sc.direct s.cfg direct }

/-- SC_ROW_ON (R94). -/
def execScRowOn (col1 col2 : Bool) (s : State) : Result :=
  whenSelected (s.sc.phase = .rowOn) { s with sc := s.sc.rowOn ⟨col1, col2⟩ }

/-- SC_EVAL1 (R95). -/
def execScEval1 (s : State) : Result :=
  whenSelected (s.sc.phase = .eval1) { s with sc := s.sc.eval1 }

/-- SC_EVAL2 (R96). -/
def execScEval2 (s : State) : Result :=
  whenSelected (s.sc.phase = .eval2) { s with sc := s.sc.eval2 s.cfg }

/-- SC_SETTLE (R97). -/
def execScSettle (s : State) : Result :=
  whenSelected (s.sc.phase = .settle) { s with sc := s.sc.settle s.cfg }

/-- SC_IDLE (R98). -/
def execScIdle (s : State) : Result :=
  whenSelected (s.sc.phase = .idle) { s with sc := s.sc.idle }

end Sys2Proof.Machine
end

