-- ==== Sys2Proof/Machine/MailboxOps.lean ====
section
/-! DEFINITION. The four mailbox operations (42_value_channel.md), the cases of R72. -/

namespace Sys2Proof.Machine

open Sys2Proof

/-- SET (R73), selected outside DRAIN. -/
def execSet (left right : Value) (s : State) : Result :=
  whenSelected (s.mx.phase ≠ .drain) { s with slot := s.slot.next false (some ⟨left, right⟩) }

/-- TRY_TAKE (R74), selected in DRAIN: the pending value, if any, is answered and the slot is left empty. -/
def execTryTake (s : State) : Result :=
  whenSelected (s.mx.phase = .drain) { s with slot := s.slot.next true none, result := .taken s.slot.taken }

/-- SET_TAKE (R75), selected in DRAIN: the old content is answered, the new value stays pending. -/
def execSetTake (left right : Value) (s : State) : Result :=
  whenSelected (s.mx.phase = .drain)
    { s with slot := s.slot.next true (some ⟨left, right⟩), result := .taken s.slot.taken }

/-- SLOT_HOLD (R76), selected outside DRAIN. -/
def execSlotHold (s : State) : Result :=
  whenSelected (s.mx.phase ≠ .drain) { s with slot := s.slot.next false none }

end Sys2Proof.Machine
end

