-- ==== Sys2Proof/Machine/Multiplexer.lean ====
section
/-! DEFINITION. The three steps of the display refresh multiplexer (43_display_mux.md). -/

namespace Sys2Proof.Machine

open Sys2Proof

/-- MX_DRAIN (R83). It performs the mailbox take itself, as TRY_TAKE does; in a clock with a SET the mailbox's next
state is that of SET_TAKE, which the clock takes from the mailbox operation (R12, log 9). -/
def execMxDrain (s : State) : Result :=
  whenSelected (s.mx.phase = .drain)
    { s with slot := s.slot.next true none, mx := s.mx.drain s.cfg s.slot.taken }

/-- MX_SETUP (R84). -/
def execMxSetup (s : State) : Result :=
  whenSelected (s.mx.phase = .setup) { s with mx := s.mx.setup s.cfg }

/-- MX_DWELL (R85). -/
def execMxDwell (s : State) : Result :=
  whenSelected (s.mx.phase = .dwell) { s with mx := s.mx.dwell s.cfg }

end Sys2Proof.Machine
end

