-- ==== Sys2Proof/Machine/ResetOp.lean ====
section
/-! DEFINITION. RESET (70_reset_and_hazards.md), the block's only transfer (R110). -/

namespace Sys2Proof.Machine

open Sys2Proof

/-- RESET (R121): every register takes its reset value, in every state. -/
def execReset (s : State) : Result := .next s.resetRegisters

end Sys2Proof.Machine
end

