-- ==== Sys2Proof/Machine/Dispatch.lean ====
section
/-! DEFINITION. The dispatcher of R58: one arm per operation. -/

namespace Sys2Proof.Machine

open Sys2Proof

def exec (i : Instr) (s : State) : Host.Outcome State Fault Refusal :=
  match i with
  | .decompose v => Sys2Proof.Machine.execDecompose v s
  | .encode code => Sys2Proof.Machine.execEncode code s
  | .encodeBlank => Sys2Proof.Machine.execEncodeBlank s
  | .set left right => Sys2Proof.Machine.execSet left right s
  | .tryTake => Sys2Proof.Machine.execTryTake s
  | .setTake left right => Sys2Proof.Machine.execSetTake left right s
  | .slotHold => Sys2Proof.Machine.execSlotHold s
  | .mxDrain => Sys2Proof.Machine.execMxDrain s
  | .mxSetup => Sys2Proof.Machine.execMxSetup s
  | .mxDwell => Sys2Proof.Machine.execMxDwell s
  | .scDirect direct => Sys2Proof.Machine.execScDirect direct s
  | .scRowOn col1 col2 => Sys2Proof.Machine.execScRowOn col1 col2 s
  | .scEval1 => Sys2Proof.Machine.execScEval1 s
  | .scEval2 => Sys2Proof.Machine.execScEval2 s
  | .scSettle => Sys2Proof.Machine.execScSettle s
  | .scIdle => Sys2Proof.Machine.execScIdle s
  | .edge b sample => Sys2Proof.Machine.execEdge b sample s
  | .reset => Sys2Proof.Machine.execReset s

end Sys2Proof.Machine
end

