-- ==== Sys2Proof/Machine/Ports.lean ====
section
/-! DEFINITION. The output ports, functions of the state alone (R12, R19, R29 to R32), the input ports of the coming
clock (R18, log 5), and the informative text of the event sink (R56). -/

namespace Sys2Proof.Machine

open Sys2Proof

/-- `out.en[k]` (R29): position p drives line p (R52), so `en[8]` and `en[9]` are never high. -/
def State.en (s : State) (k : EnableLine) : Bool :=
  decide (s.mx.phase = .dwell) && decide (k.val = s.mx.pos.val)

/-- `out.seg` (R30). -/
def State.segOut (s : State) : Pattern := s.mx.seg

/-- `out.row` (R31), the row counted from 0. -/
def State.rowOut (s : State) (r : Row) : Bool :=
  decide (s.sc.phase = .rowOn) && decide (r = s.sc.row)

/-- The output ports of R19. -/
structure Outputs where
  seg : Pattern
  en : Vector Bool 10
  row : Vector Bool 5
  evtValid : Bool
  evtId : ButtonId
  evtPressed : Bool
deriving DecidableEq, Repr

/-- The outputs of the clock whose state is `s` (R29 to R32). -/
def State.out (s : State) : Outputs where
  seg := s.segOut
  en := Vector.ofFn s.en
  row := Vector.ofFn s.rowOut
  evtValid := s.sc.evtV
  evtId := s.sc.evtB
  evtPressed := s.sc.evtP

/-- The input ports at the coming edge: what the environment has queued, else a free value of this clock (log 5). -/
def State.input (s : State) : Input :=
  match s.stim with
  | x :: _ => sampleStimulus x s.rowOut
  | [] => Config.freeInput s.clock

/-- The text a sink prints for an event word (R56), informative only. -/
def sinkText (id : ButtonId) (pressed : Bool) : String :=
  if id = directButton then
    if pressed then "Pen button is pressed" else "Pen button is not pressed"
  else
    "Button " ++ Config.buttonName id.val ++ (if pressed then " is pressed" else " is released")

end Sys2Proof.Machine
end

