-- ==== Sys2Proof/Machine/Clock.lean ====
section
/-! DEFINITION. One clock of the block (R12): which operations a clock selects (R58), their parallel composition, and
the operation requests of the model's dispatcher (log 2). Step.lean only calls this. -/

namespace Sys2Proof.Machine

open Sys2Proof

/-- The mailbox operation of a clock with `rst = 0` (R58, R72). -/
def selectMailbox (s : State) (x : Input) : Instr :=
  match decide (s.mx.phase = .drain), x.setValid with
  | false, true => .set x.setLeft x.setRight
  | true, false => .tryTake
  | true, true => .setTake x.setLeft x.setRight
  | false, false => .slotHold

/-- The multiplexer step of a clock with `rst = 0` (R58). -/
def selectMux (s : State) : Instr :=
  match s.mx.phase with
  | .drain => .mxDrain
  | .setup => .mxSetup
  | .dwell => .mxDwell

/-- The scanner step of a clock with `rst = 0` (R58). -/
def selectScanner (s : State) (x : Input) : Instr :=
  match s.sc.phase with
  | .direct => .scDirect x.direct
  | .rowOn => .scRowOn x.col.c1 x.col.c2
  | .eval1 => .scEval1
  | .eval2 => .scEval2
  | .settle => .scSettle
  | .idle => .scIdle

/-- Go on from a next state; a stop stays. -/
def andThen (r : Result) (f : State → Result) : Result :=
  match r with
  | .next t => f t
  | .fault e => .fault e
  | .refused e => .refused e

/-- The end of a clock: the edge is counted and its inputs are used up. -/
def State.advance (s : State) : State := { s with clock := s.clock + 1, stim := s.stim.tail }

/-- The parallel composition of R12: each operation reads the state `s` of this clock, the mailbox's next value is the
mailbox operation's, the multiplexer's the multiplexer step's, the scanner's the scanner step's. -/
def compose (s : State) (mailbox mux scanner : Instr) : Result :=
  andThen (exec mailbox s) fun a =>
    andThen (exec mux s) fun b =>
      andThen (exec scanner s) fun c =>
        .next { s with slot := a.slot, result := a.result, mx := b.mx, sc := c.sc }

/-- One clock (R12): RESET alone when `rst = 1` (R108), else the three selected operations. -/
def clockStep (s : State) : Result :=
  if s.input.rst then andThen (exec .reset s) fun t => .next t.advance
  else
    andThen (compose s (selectMailbox s s.input) (selectMux s) (selectScanner s s.input)) fun t => .next t.advance

/-- One requested operation (log 2): the word is decoded and the operation performed alone; no clock passes. -/
def requestStep (w : OpWord) (rest : List OpWord) (s : State) : Result :=
  match decode w with
  | .ok i => exec i { s with ops := rest }
  | .error e => .refused (.notAnOperation e)

/-- Make the selector of an operation hold (R58, log 6): the phase it needs, everything else as it stands. -/
def State.select (s : State) (i : Instr) : State :=
  let withMx (p : MxPhase) : State := { s with mx := { s.mx with phase := p } }
  let outsideDrain : State := if s.mx.phase = .drain then withMx .setup else s
  let withSc (p : ScPhase) : State := { s with sc := { s.sc with phase := p } }
  match i with
  | .decompose _ => s
  | .encode _ => s
  | .encodeBlank => s
  | .set _ _ => outsideDrain
  | .tryTake => withMx .drain
  | .setTake _ _ => withMx .drain
  | .slotHold => outsideDrain
  | .mxDrain => withMx .drain
  | .mxSetup => withMx .setup
  | .mxDwell => withMx .dwell
  | .scDirect _ => withSc .direct
  | .scRowOn _ _ => withSc .rowOn
  | .scEval1 => withSc .eval1
  | .scEval2 => withSc .eval2
  | .scSettle => withSc .settle
  | .scIdle => withSc .idle
  | .edge _ _ => s
  | .reset => s

/-- The operation word `w` requested next, in a state that selects its operation (log 6). -/
def State.request (s : State) (w : OpWord) : State :=
  let selected : State :=
    match decode w with
    | .ok i => s.select i
    | .error _ => s
  { selected with ops := w :: s.ops }

end Sys2Proof.Machine
end

