-- ==== Sys2Proof/Machine/Step.lean ====
section
/-! DEFINITION. The step: a requested operation if one is queued, else one clock of the block. -/

namespace Sys2Proof.Machine

open Sys2Proof

/-- One step (R12). With nothing requested it is one clock; a requested operation word is performed first, alone
(log 2). -/
def step (s : State) : Host.Outcome State Fault Refusal :=
  match s.ops with
  | [] => clockStep s
  | w :: rest => requestStep w rest s

/-- `s` with the operation word `w` (numbered as the opcode table numbers it, its low `nbits` bits) requested next, in
a state that selects its operation (log 6). -/
def State.withFetchWord (s : State) (nbits w : Nat) : State :=
  s.request (BitVec.ofNat 40 (w % 2 ^ nbits))

end Sys2Proof.Machine
end

