-- ==== Sys2Proof/Machine/Notation.lean ====
section
/-! DEFINITION. The test notation of R62 and R63 as functions over the step. -/

namespace Sys2Proof.Machine

open Sys2Proof

/-- The stimulus of a RESET clock (R62). -/
def resetClock (keys : Keys) : Stimulus := ⟨true, false, 0, 0, keys⟩

/-- The stimulus of a SET clock (R62). -/
def setClock (left right : Value) (keys : Keys) : Stimulus := ⟨false, true, left, right, keys⟩

/-- The stimulus of a TICK clock (R62). -/
def tickClock (keys : Keys) : Stimulus := ⟨false, false, 0, 0, keys⟩

/-- Run one step with the given stimulus in front of what the environment has queued. -/
def drive (x : Stimulus) (s : State) : Result := step { s with stim := x :: s.stim }

/-- `n` clocks with the same stimulus. -/
def driveTimes (n : Nat) (x : Stimulus) (s : State) : Result :=
  match n with
  | 0 => .next s
  | k + 1 => andThen (drive x s) fun t => driveTimes k x t

/-- Clocks with the same stimulus until the condition holds, at most `fuel` of them. -/
def driveUntil (fuel : Nat) (x : Stimulus) (reached : State → Bool) (s : State) : Result :=
  match fuel with
  | 0 => .next s
  | k + 1 => if reached s then .next s else andThen (drive x s) fun t => driveUntil k x reached t

/-- A bound on the clocks of one refresh cycle (R86: at most eight shown positions). -/
def cycleBound (c : Config) : Nat := 1 + 8 * (c.setupTicks + c.dwellTicks)

/-- The clocks of one scan cycle (R99). -/
def scanBound (c : Config) : Nat := 1 + 5 * (c.rowSetupTicks + 2 + c.settleTicks) + c.scanIdleTicks

/-- One statement (R62, R63), with the keypad setting that holds: the new setting and the outcome. CYCLE and SCAN tick at
least once, then until the sequencer is back at its first phase. -/
def runStmt (st : Stmt) (keys : Keys) (s : State) : Keys × Result :=
  match st with
  | .reset => (keys, drive (resetClock keys) s)
  | .set left right => (keys, drive (setClock left right keys) s)
  | .tick n => (keys, driveTimes n (tickClock keys) s)
  | .keys direct pressed => (.matrix direct pressed, .next s)
  | .cycle =>
    (keys, andThen (drive (tickClock keys) s) fun t =>
      driveUntil (cycleBound s.cfg) (tickClock keys) (fun u => decide (u.mx.phase = .drain)) t)
  | .scan =>
    (keys, andThen (drive (tickClock keys) s) fun t =>
      driveUntil (scanBound s.cfg) (tickClock keys) (fun u => decide (u.sc.phase = .direct)) t)
  | .setHold left right n =>
    (keys, andThen (drive (setClock left right keys) s) fun t => driveTimes (n - 1) (tickClock keys) t)
  | .eval i => (keys, step { s with ops := encode i :: s.ops })

/-- A test program (R62): before any KEYS nothing is pressed and `direct` is 0 (95_test_vectors.md, section 3). -/
def runProgram (keys : Keys) (p : List Stmt) (s : State) : Result :=
  match p with
  | [] => .next s
  | st :: rest => andThen (runStmt st keys s).2 fun t => runProgram (runStmt st keys s).1 rest t

/-- The keypad before any KEYS. -/
def noKeys : Keys := .matrix false []

end Sys2Proof.Machine
end

