-- ==== Sys2Proof/Safety.lean ====
section
/-! DEFINITION. The terms in which claims are stated: when an operation is selected (R58), the invariant of the
registers, runs of clocks with the states they visit, and the sample a clock takes of a button. -/

namespace Sys2Proof.Machine

open Sys2Proof

/-- The state part of the selector column of R58. DECOMPOSE, ENCODE and ENCODE_BLANK are combinational, EDGE is a
sub-operation and RESET is selected by `rst` alone: no state is shut out for these. -/
def Selected (i : Instr) (s : State) : Prop :=
  match i with
  | .decompose _ => True
  | .encode _ => True
  | .encodeBlank => True
  | .set _ _ => s.mx.phase ≠ .drain
  | .tryTake => s.mx.phase = .drain
  | .setTake _ _ => s.mx.phase = .drain
  | .slotHold => s.mx.phase ≠ .drain
  | .mxDrain => s.mx.phase = .drain
  | .mxSetup => s.mx.phase = .setup
  | .mxDwell => s.mx.phase = .dwell
  | .scDirect _ => s.sc.phase = .direct
  | .scRowOn _ _ => s.sc.phase = .rowOn
  | .scEval1 => s.sc.phase = .eval1
  | .scEval2 => s.sc.phase = .eval2
  | .scSettle => s.sc.phase = .settle
  | .scIdle => s.sc.phase = .idle
  | .edge _ _ => True
  | .reset => True

/-- The invariant of the registers: the parameters keep R7's constraints; outside DRAIN the position is a shown one and
the latch holds its pattern (R82, R88); the timers stay below the length of their phase and are 0 in the phases that do
not count (R23, R26, R112); the initialising cycle presents no event (R102). -/
structure Inv (s : State) : Prop where
  cfgWf : s.cfg.wf = true
  posShown : s.mx.phase ≠ .drain → s.mx.digits.shown s.mx.pos = true
  segHolds : s.mx.phase ≠ .drain → s.mx.seg = encodeDigit (s.mx.digits.digit s.mx.pos)
  drainTimer : s.mx.phase = .drain → s.mx.timer = 0
  setupTimer : s.mx.phase = .setup → s.mx.timer < s.cfg.setupTicks
  dwellTimer : s.mx.phase = .dwell → s.mx.timer < s.cfg.dwellTicks
  rowTimer : s.sc.phase = .rowOn → s.sc.timer < s.cfg.rowSetupTicks
  settleTimer : s.sc.phase = .settle → s.sc.timer < s.cfg.settleTicks
  idleTimer : s.sc.phase = .idle → s.sc.timer < s.cfg.scanIdleTicks
  stillTimer : s.sc.phase = .direct ∨ s.sc.phase = .eval1 ∨ s.sc.phase = .eval2 → s.sc.timer = 0
  initSilent : s.sc.init = true → s.sc.evtV = false

/-- A run of clocks (R12): `Clocks s visited t` when clock steps lead from `s` to `t` and `visited` lists the states of
the clocks passed, `s` first, `t` not among them. -/
inductive Clocks : State → List State → State → Prop where
  | nil (s : State) : Clocks s [] s
  | cons {s u t : State} {visited : List State} (quiet : s.ops = []) (h : step s = .next u)
      (rest : Clocks u visited t) : Clocks s (s :: visited) t

/-- A SET is performed in the clock of `s` (R57, R79). -/
def SetsIn (s : State) (v : DisplayValue) : Prop :=
  s.input.rst = false ∧ s.input.setValid = true ∧ v = ⟨s.input.setLeft, s.input.setRight⟩

/-- A take is performed in the clock of `s` (R72). -/
def TakesIn (s : State) : Prop := s.input.rst = false ∧ s.mx.phase = .drain

/-- The sample of button `b` that the clock of `s` hands to the edge detector, if any: the direct line in DIRECT
(R93), the latched columns in EVAL1 and EVAL2 (R95, R96). -/
def sampleOf (s : State) (b : ButtonId) : Option Bool :=
  match s.sc.phase with
  | .direct => if b = directButton then some (directSample s.cfg s.input.direct) else none
  | .rowOn => none
  | .eval1 => if b = matrixButton s.sc.row 0 then some s.sc.colSample.c1 else none
  | .eval2 => if b = matrixButton s.sc.row 1 then some s.sc.colSample.c2 else none
  | .settle => none
  | .idle => none

/-- `N(D)` of R86: how many of the eight positions are shown. -/
def shownCount (d : DigitFile) : Nat := (allPositions.filter fun p => d.shown p).length

/-- `1000*d0 + 100*d1 + 10*d2 + d3` (R65). -/
def reconstruct (b : Bank) : Nat := 1000 * b.thousands.val + 100 * b.hundreds.val + 10 * b.tens.val + b.ones.val

end Sys2Proof.Machine
end

