-- ==== Sys2Proof/Certificates/Slice0/Obligations.lean ====
section
/-! DEFINITION. The statements about the model, each a proposition. R<n> names the rule of spec/ that a statement
formalises; "log n" names the entry of the assumption log that a derived clause rests on. Where an operation answers a value, the
model puts it in `result` (log 4). The outputs of a clock are `State.out`, a function of the state alone by its type. -/

open Sys2Proof Sys2Proof.Machine

section Decomposer

/-- R64: DECOMPOSE answers the four digits, saturating from 9999 on, and writes no register. `result` is the model's
place for the answer (log 4). -/
def Obligations.DecomposeAnswersSaturatedDigits : Prop :=
  ∀ (v : Value) (s : State), ∃ b : Bank,
    exec (.decompose v) s = .next { s with result := .digits b } ∧
      b = decomposeValue v ∧
      (v.toNat = 0 → b = ⟨0, 0, 0, 0⟩) ∧
      (9999 ≤ v.toNat → b = ⟨9, 9, 9, 9⟩) ∧
      (0 < v.toNat → v.toNat < 9999 →
        b.thousands.val = v.toNat / 1000 ∧ b.hundreds.val = v.toNat / 100 % 10 ∧
          b.tens.val = v.toNat / 10 % 10 ∧ b.ones.val = v.toNat % 10)

/-- The laws of DECOMPOSE that its file derives: reconstruction, saturation without wraparound, purity, leading
zeros. The answer `b` depends on `v` alone. -/
def Obligations.DecomposeReconstructsBelowSaturation : Prop :=
  ∀ v : Value, ∃ b : Bank,
    (∀ s : State, exec (.decompose v) s = .next { s with result := .digits b }) ∧
      reconstruct b = min v.toNat 9999 ∧
      (b.thousands = 0 ↔ v.toNat < 1000) ∧
      (b.thousands = 0 ∧ b.hundreds = 0 ↔ v.toNat < 100)

end Decomposer

section Encoder

/-- R67: ENCODE answers the table's pattern for every digit and writes no register; a code 10..15 is refused. -/
def Obligations.EncodeAnswersTablePattern : Prop :=
  ∀ s : State,
    exec (.encode 0) s = .next { s with result := .pattern 0b0000 } ∧
    exec (.encode 1) s = .next { s with result := .pattern 0b0001 } ∧
    exec (.encode 2) s = .next { s with result := .pattern 0b0010 } ∧
    exec (.encode 3) s = .next { s with result := .pattern 0b0011 } ∧
    exec (.encode 4) s = .next { s with result := .pattern 0b0100 } ∧
    exec (.encode 5) s = .next { s with result := .pattern 0b0101 } ∧
    exec (.encode 6) s = .next { s with result := .pattern 0b0110 } ∧
    exec (.encode 7) s = .next { s with result := .pattern 0b0111 } ∧
    exec (.encode 8) s = .next { s with result := .pattern 0b1000 } ∧
    exec (.encode 9) s = .next { s with result := .pattern 0b1001 } ∧
    ∀ code : BitVec 4, 10 ≤ code.toNat → exec (.encode code) s = .refused .reservedDigitCode

/-- The spec's derivation at R69: for every digit the pattern, read as `seg[3:0]`, is the digit as a 4-bit number; the
pattern is the one that the multiplexer loads (`encodeDigit`). -/
def Obligations.EncodedPatternEqualsDigit : Prop :=
  ∀ (d : Digit) (s : State),
    exec (.encode (BitVec.ofNat 4 d.val)) s = .next { s with result := .pattern (encodeDigit d) } ∧
      (encodeDigit d).toNat = d.val

/-- R68: ENCODE_BLANK answers 0b0000, as ENCODE of 0 does, and writes no register. -/
def Obligations.EncodeBlankEqualsEncodeZero : Prop :=
  ∀ s : State,
    exec .encodeBlank s = .next { s with result := .pattern 0b0000 } ∧ exec .encodeBlank s = exec (.encode 0) s

/-- The encoder's input word: blank whatever the code, a digit, or refused. -/
def Obligations.EncoderInputWordDecodes : Prop :=
  ∀ w : BitVec 5,
    (w.getLsbD 4 = true → decodeEncoderInput w = .ok .encodeBlank) ∧
      (w.toNat < 10 → decodeEncoderInput w = .ok (.encode (w.setWidth 4))) ∧
      (10 ≤ w.toNat → w.toNat < 16 → decodeEncoderInput w = .error .reservedDigitCode)

end Encoder

section Mailbox

/-- R73: outside DRAIN, SET stores both fields and makes the value pending, whatever was there; nothing else changes. -/
def Obligations.SetOverwritesSlot : Prop :=
  ∀ (left right : Value) (s : State), s.mx.phase ≠ .drain →
    exec (.set left right) s = .next { s with slot := ⟨true, left, right⟩ }

/-- R74: in DRAIN, TRY_TAKE answers the pending value or nothing and empties the slot; the data fields and every other
register stay. -/
def Obligations.TryTakeEmptiesSlot : Prop :=
  ∀ s : State, s.mx.phase = .drain →
    exec .tryTake s = .next
      { s with
        slot := ⟨false, s.slot.left, s.slot.right⟩
        result := .taken (if s.slot.pending then some ⟨s.slot.left, s.slot.right⟩ else none) }

/-- R75: in DRAIN, SET_TAKE answers the old content and leaves the new value pending; nothing else changes. -/
def Obligations.SetTakeAnswersOldKeepsNew : Prop :=
  ∀ (left right : Value) (s : State), s.mx.phase = .drain →
    exec (.setTake left right) s = .next
      { s with
        slot := ⟨true, left, right⟩
        result := .taken (if s.slot.pending then some ⟨s.slot.left, s.slot.right⟩ else none) }

/-- The spec's derivation at R76: outside DRAIN, SLOT_HOLD changes nothing. -/
def Obligations.SlotHoldChangesNothing : Prop :=
  ∀ s : State, s.mx.phase ≠ .drain → exec .slotHold s = .next s

/-- R72: the mailbox's next state and the taken value in every clock with `rst = 0`. -/
def Obligations.MailboxClockFollowsOneFunction : Prop :=
  ∀ s : State, s.ops = [] → s.input.rst = false → ∃ t, step s = .next t ∧
    t.slot.pending = (s.input.setValid || (s.slot.pending && decide (s.mx.phase ≠ .drain))) ∧
    (s.input.setValid = true → t.slot.left = s.input.setLeft ∧ t.slot.right = s.input.setRight) ∧
    (s.input.setValid = false → t.slot.left = s.slot.left ∧ t.slot.right = s.slot.right) ∧
    (s.mx.phase = .drain →
      t.result = .taken (if s.slot.pending then some ⟨s.slot.left, s.slot.right⟩ else none))

/-- The spec's derivation at R77: in a run of clocks without a take and without RESET, the slot ends with the last SET
of the run, or as it was if there is none; the next take answers it, and a second one answers nothing. -/
def Obligations.MailboxCoalescesToLastSet : Prop :=
  ∀ (s t : State) (visited : List State), Clocks s visited t →
    (∀ u ∈ visited, u.mx.phase ≠ .drain ∧ u.input.rst = false) →
    ((∀ u ∈ visited, ∀ v, ¬SetsIn u v) → t.slot = s.slot) ∧
    (∀ before u later v, visited = before ++ u :: later → SetsIn u v → (∀ w ∈ later, ∀ v', ¬SetsIn w v') →
      t.slot = ⟨true, v.left, v.right⟩) ∧
    (t.mx.phase = .drain → ∃ t1 t2,
      exec .tryTake t = .next t1 ∧
        t1.result = .taken (if t.slot.pending then some ⟨t.slot.left, t.slot.right⟩ else none) ∧
        exec .tryTake t1 = .next t2 ∧ t2.result = .taken none)

/-- The spec's derivation at R41: from an empty slot, a take answers (L, R) exactly when some earlier clock of the run
SET (L, R), no later clock SET or took, and no RESET occurred from that clock on; a SET in the clock of the take stays
pending. -/
def Obligations.TakeSeesMostRecentEarlierSet : Prop :=
  ∀ (s t : State) (visited : List State), s.slot.pending = false → Clocks s visited t → t.ops = [] → TakesIn t →
    ∃ t', step t = .next t' ∧
      (∀ v : DisplayValue, t'.result = .taken (some v) ↔
        ∃ before u later, visited = before ++ u :: later ∧ SetsIn u v ∧
          ∀ w ∈ later, (∀ v', ¬SetsIn w v') ∧ ¬TakesIn w ∧ w.input.rst = false) ∧
      (∀ v, SetsIn t v → t'.slot = ⟨true, v.left, v.right⟩)

end Mailbox

section Multiplexer

/-- R80: the shown positions of a digit file; each bank by its own digits. -/
def Obligations.ShownPositionsBlankLeadingZeros : Prop :=
  ∀ d : DigitFile,
    (d.shown 0 = true ↔ d.digit 0 ≠ 0) ∧
    (d.shown 1 = true ↔ d.digit 0 ≠ 0 ∨ d.digit 1 ≠ 0) ∧
    d.shown 2 = true ∧ d.shown 3 = true ∧
    (d.shown 4 = true ↔ d.digit 4 ≠ 0) ∧
    (d.shown 5 = true ↔ d.digit 4 ≠ 0 ∨ d.digit 5 ≠ 0) ∧
    d.shown 6 = true ∧ d.shown 7 = true

/-- R81: the first shown position is the least one and 0, 1 or 2; the next shown position is the least one above, if
any; none above 7; 4, 5 or 6 above 3. -/
def Obligations.ShownPositionsInIncreasingOrder : Prop :=
  ∀ d : DigitFile,
    (d.shown d.firstShown = true ∧ (∀ q, q < d.firstShown → d.shown q = false) ∧ d.firstShown ≤ 2) ∧
    (∀ p q, d.nextShown p = some q ↔ p < q ∧ d.shown q = true ∧ ∀ r, p < r → r < q → d.shown r = false) ∧
    (∀ p, d.nextShown p = none ↔ ∀ q, p < q → d.shown q = false) ∧
    d.nextShown 7 = none ∧
    (d.nextShown 3 = some 4 ∨ d.nextShown 3 = some 5 ∨ d.nextShown 3 = some 6)

/-- R83: in DRAIN, MX_DRAIN takes the pending value, decomposes both fields into the digits (or keeps the digits),
selects the first shown position of the new digits, loads its pattern and enters SETUP; beside the mailbox it changes
nothing else. In the clock, the mailbox is left as the take leaves it, a SET of the same clock pending. -/
def Obligations.MxDrainLoadsFirstShownPosition : Prop :=
  ∀ (s : State) (d : DigitFile) (p : Position) (m : Mux), s.mx.phase = .drain →
    d = (if s.slot.pending then ⟨decomposeValue s.slot.left, decomposeValue s.slot.right⟩ else s.mx.digits) →
    d.shown p = true → (∀ q, q < p → d.shown q = false) →
    m = { digits := d, seg := encodeDigit (d.digit p), phase := .setup, pos := p, timer := s.cfg.setupTicks - 1 } →
    (∃ left, exec .mxDrain s = .next { s with slot := left, mx := m }) ∧
    (s.ops = [] → s.input.rst = false → ∃ t, step s = .next t ∧ t.mx = m ∧
      t.slot = if s.input.setValid then ⟨true, s.input.setLeft, s.input.setRight⟩
        else ⟨false, s.slot.left, s.slot.right⟩)

/-- MX_DRAIN requested alone leaves the mailbox as TRY_TAKE does (the model's choice, log 9: a request stands for a
clock without a SET). -/
def Obligations.MxDrainAloneEmptiesSlot : Prop :=
  ∀ s : State, s.mx.phase = .drain → ∃ t u, exec .mxDrain s = .next t ∧ exec .tryTake s = .next u ∧ t.slot = u.slot

/-- R84: in SETUP, MX_SETUP counts down, then enters DWELL; nothing else changes. -/
def Obligations.MxSetupCountsThenDwells : Prop :=
  ∀ s : State, s.mx.phase = .setup →
    (0 < s.mx.timer → exec .mxSetup s = .next { s with mx := { s.mx with timer := s.mx.timer - 1 } }) ∧
    (s.mx.timer = 0 →
      exec .mxSetup s = .next { s with mx := { s.mx with phase := .dwell, timer := s.cfg.dwellTicks - 1 } })

/-- R85: in DWELL, MX_DWELL counts down, then selects the next shown position and loads its pattern, or, if none is
left, enters DRAIN with the pattern kept; nothing else changes. -/
def Obligations.MxDwellCountsThenMovesOn : Prop :=
  ∀ s : State, s.mx.phase = .dwell →
    (0 < s.mx.timer → exec .mxDwell s = .next { s with mx := { s.mx with timer := s.mx.timer - 1 } }) ∧
    (s.mx.timer = 0 → ∀ q : Position, s.mx.pos < q → s.mx.digits.shown q = true →
      (∀ r, s.mx.pos < r → r < q → s.mx.digits.shown r = false) →
      exec .mxDwell s = .next
        { s with
          mx :=
            { s.mx with
              pos := q
              seg := encodeDigit (s.mx.digits.digit q)
              timer := s.cfg.setupTicks - 1
              phase := .setup } }) ∧
    (s.mx.timer = 0 → (∀ q : Position, s.mx.pos < q → s.mx.digits.shown q = false) →
      exec .mxDwell s = .next { s with mx := { s.mx with phase := .drain } })

/-- R29: the enable lines are a function of the state: line k is high exactly in DWELL at position k, so at most one is
high and lines 8 and 9 never are. -/
def Obligations.EnableLineHighOnlyAtDwellPosition : Prop :=
  ∀ s : State,
    (∀ k : EnableLine, s.out.en[k] = true ↔ s.mx.phase = .dwell ∧ k.val = s.mx.pos.val) ∧
    (∀ j k : EnableLine, s.out.en[j] = true → s.out.en[k] = true → j = k) ∧
    s.out.en[8] = false ∧ s.out.en[9] = false

/-- Skipped positions, in part: in every state that meets the invariant, a position that is not shown has its enable line
low, and no clock outside DRAIN is spent on it. -/
def Obligations.SkippedPositionsStayDark : Prop :=
  ∀ (s : State) (p : Position), Inv s → s.mx.digits.shown p = false →
    s.out.en[p.val] = false ∧ (s.mx.phase ≠ .drain → s.mx.pos ≠ p)

/-- The spec's derivation at R87: at most one enable is high, and after one falls every enable is low for SETUP_TICKS
clocks, one more when a DRAIN follows, whatever the inputs, RESET included. -/
def Obligations.EnablesBreakBeforeMake : Prop :=
  (∀ (s : State) (j k : EnableLine), s.out.en[j] = true → s.out.en[k] = true → j = k) ∧
  ∀ s u : State, s.ops = [] → s.mx.phase = .dwell → step s = .next u → u.mx.phase ≠ .dwell →
    ∀ k, (k < s.cfg.setupTicks ∨ (u.mx.phase = .drain ∧ k < s.cfg.setupTicks + 1)) →
      ∃ v, Host.Core.run core k u = .next v ∧ ∀ j : EnableLine, v.out.en[j] = false

/-- The spec's derivation at R88: while an enable is high the lines hold the pattern of its digit, and from one clock
of the strobe to the next neither the pattern nor the digit changes. -/
def Obligations.PatternStableWhileEnabled : Prop :=
  ∀ (s : State) (p : Position), Inv s → s.out.en[p.val] = true →
    s.out.seg = encodeDigit (s.mx.digits.digit p) ∧
      ∀ t, s.ops = [] → step s = .next t → t.out.en[p.val] = true →
        t.out.seg = s.out.seg ∧ t.mx.digits.digit p = s.mx.digits.digit p

/-- The spec's derivation at R86: without RESET a refresh cycle takes exactly `1 + N(D) * (SETUP_TICKS + DWELL_TICKS)`
clocks from DRAIN to the next DRAIN, D the digits after the drain, with N(D) in 4..8. -/
def Obligations.RefreshCycleLength : Prop :=
  ∀ s u : State, s.ops = [] → s.cfg.wf = true → s.mx.phase = .drain → step s = .next u →
    (∀ k v, k < 1 + shownCount u.mx.digits * (s.cfg.setupTicks + s.cfg.dwellTicks) →
      Host.Core.run core k s = .next v → v.input.rst = false) →
    4 ≤ shownCount u.mx.digits ∧ shownCount u.mx.digits ≤ 8 ∧
    (∃ t, Host.Core.run core (1 + shownCount u.mx.digits * (s.cfg.setupTicks + s.cfg.dwellTicks)) s = .next t ∧
      t.mx.phase = .drain ∧ t.mx.digits = u.mx.digits) ∧
    ∀ k, 0 < k → k < 1 + shownCount u.mx.digits * (s.cfg.setupTicks + s.cfg.dwellTicks) →
      ∃ v, Host.Core.run core k s = .next v ∧ v.mx.phase ≠ .drain ∧ v.mx.digits = u.mx.digits

/-- The spec's derivation at R89, in part: from reset registers, with no SET in any clock, the digits stay zero and
only the enables 2, 3, 6 and 7 ever rise, with the pattern 0b0000; RESET may come at any time. -/
def Obligations.NeverWrittenMailboxStrobesZeros : Prop :=
  ∀ (s t : State) (visited : List State), s.mx = Mux.reset → s.slot.pending = false → Clocks s visited t →
    (∀ u ∈ visited, u.input.setValid = false) →
    t.mx.digits = Mux.reset.digits ∧
      ∀ k : EnableLine, t.out.en[k] = true →
        (k.val = 2 ∨ k.val = 3 ∨ k.val = 6 ∨ k.val = 7) ∧ t.out.seg = 0b0000

/-- End to end: a value pending at a drain shows, digit by digit, saturated at 9999, on the lines of
every strobe until the next drain, whatever is SET meanwhile. -/
def Obligations.DrainedValueIsDisplayedDecimally : Prop :=
  ∀ (s u t : State) (visited : List State), s.ops = [] → s.mx.phase = .drain → s.input.rst = false →
    s.slot.pending = true → step s = .next u → Clocks u visited t →
    (∀ w ∈ visited, w.mx.phase ≠ .drain ∧ w.input.rst = false) →
    ∀ p : Position, t.out.en[p.val] = true →
      (p.val < 4 → t.out.seg.toNat = min s.slot.left.toNat 9999 / 10 ^ (3 - p.val) % 10) ∧
      (4 ≤ p.val → t.out.seg.toNat = min s.slot.right.toNat 9999 / 10 ^ (7 - p.val) % 10)

/-- A SET during a refresh cycle does not change the digits shown in that cycle: outside DRAIN a clock without RESET
keeps the digits, whatever is SET. -/
def Obligations.MidCycleSetKeepsDigits : Prop :=
  ∀ s : State, s.ops = [] → s.mx.phase ≠ .drain → s.input.rst = false →
    ∃ t, step s = .next t ∧ t.mx.digits = s.mx.digits ∧
      (s.input.setValid = true → t.slot = ⟨true, s.input.setLeft, s.input.setRight⟩)

end Multiplexer

section Scanner

/-- R91: EDGE initialises in the first scan cycle, emits on a change, else emits nothing; `btn[b]` and the event
registers are all it writes. -/
def Obligations.EdgeEmitsExactlyOnChange : Prop :=
  ∀ (b : ButtonId) (v : Bool) (s : State),
    (s.sc.init = true →
      exec (.edge b v) s = .next { s with sc := { s.sc with btn := s.sc.btn.set b.val v b.isLt, evtV := false } }) ∧
    (s.sc.init = false → v ≠ s.sc.btn[b] →
      exec (.edge b v) s = .next
        { s with
          sc := { s.sc with btn := s.sc.btn.set b.val v b.isLt, evtV := true, evtB := b, evtP := v } }) ∧
    (s.sc.init = false → v = s.sc.btn[b] → exec (.edge b v) s = .next { s with sc := { s.sc with evtV := false } })

/-- R93: in DIRECT, SC_DIRECT runs EDGE on button 0 with the level read by its polarity and starts row 1; nothing else
changes. -/
def Obligations.ScDirectSamplesPenButton : Prop :=
  ∀ (level : Bool) (s : State), s.sc.phase = .direct →
    ∃ u, exec (.edge 0 (decide (level = s.cfg.directPressedLevel))) s = .next u ∧
      exec (.scDirect level) s = .next
        { u with sc := { u.sc with row := 0, timer := s.cfg.rowSetupTicks - 1, phase := .rowOn } }

/-- R94: in ROW_ON, SC_ROW_ON counts down, then latches both columns and enters EVAL1; no event; nothing else changes.
-/
def Obligations.ScRowOnLatchesBothColumns : Prop :=
  ∀ (col1 col2 : Bool) (s : State), s.sc.phase = .rowOn →
    (0 < s.sc.timer →
      exec (.scRowOn col1 col2) s = .next { s with sc := { s.sc with evtV := false, timer := s.sc.timer - 1 } }) ∧
    (s.sc.timer = 0 →
      exec (.scRowOn col1 col2) s = .next
        { s with sc := { s.sc with evtV := false, colSample := ⟨col1, col2⟩, phase := .eval1 } })

/-- R95: in EVAL1, SC_EVAL1 runs EDGE on the row's first button with the first column and enters EVAL2. -/
def Obligations.ScEval1ComparesFirstColumn : Prop :=
  ∀ (b : ButtonId) (s : State), s.sc.phase = .eval1 → b.val = 2 * (Row.number s.sc.row - 1) + 1 →
    ∃ u, exec (.edge b s.sc.colSample.c1) s = .next u ∧
      exec .scEval1 s = .next { u with sc := { u.sc with phase := .eval2 } }

/-- R96: in EVAL2, SC_EVAL2 runs EDGE on the row's second button with the second column and enters SETTLE. -/
def Obligations.ScEval2ComparesSecondColumn : Prop :=
  ∀ (b : ButtonId) (s : State), s.sc.phase = .eval2 → b.val = 2 * (Row.number s.sc.row - 1) + 2 →
    ∃ u, exec (.edge b s.sc.colSample.c2) s = .next u ∧
      exec .scEval2 s = .next { u with sc := { u.sc with timer := s.cfg.settleTicks - 1, phase := .settle } }

/-- R97: in SETTLE, SC_SETTLE counts down, then starts the next row, or after row 5 ends the initialising cycle and goes
to IDLE or straight to DIRECT; no event; nothing else changes. -/
def Obligations.ScSettleAdvancesRowOrEndsCycle : Prop :=
  ∀ s : State, s.sc.phase = .settle →
    (0 < s.sc.timer →
      exec .scSettle s = .next { s with sc := { s.sc with evtV := false, timer := s.sc.timer - 1 } }) ∧
    (s.sc.timer = 0 → ∀ r : Row, Row.number s.sc.row < 5 → Row.number r = Row.number s.sc.row + 1 →
      exec .scSettle s = .next
        { s with sc := { s.sc with evtV := false, row := r, timer := s.cfg.rowSetupTicks - 1, phase := .rowOn } }) ∧
    (s.sc.timer = 0 → Row.number s.sc.row = 5 → 0 < s.cfg.scanIdleTicks →
      exec .scSettle s = .next
        { s with
          sc := { s.sc with evtV := false, init := false, timer := s.cfg.scanIdleTicks - 1, phase := .idle } }) ∧
    (s.sc.timer = 0 → Row.number s.sc.row = 5 → s.cfg.scanIdleTicks = 0 →
      exec .scSettle s = .next { s with sc := { s.sc with evtV := false, init := false, phase := .direct } })

/-- R98: in IDLE, SC_IDLE counts down, then goes to DIRECT; no event; nothing else changes. -/
def Obligations.ScIdleCountsThenRestarts : Prop :=
  ∀ s : State, s.sc.phase = .idle →
    (0 < s.sc.timer →
      exec .scIdle s = .next { s with sc := { s.sc with evtV := false, timer := s.sc.timer - 1 } }) ∧
    (s.sc.timer = 0 → exec .scIdle s = .next { s with sc := { s.sc with evtV := false, phase := .direct } })

/-- R31: the row lines are a function of the state: row r is high exactly in ROW_ON at row r, so at most one is high. -/
def Obligations.RowLineHighOnlyInRowOn : Prop :=
  ∀ s : State,
    (∀ r : Row, s.out.row[r] = true ↔ s.sc.phase = .rowOn ∧ r = s.sc.row) ∧
    (∀ q r : Row, s.out.row[q] = true → s.out.row[r] = true → q = r)

/-- The spec's derivation at R100, the row gap of the scanner's laws, in clocks without RESET: after a row falls every
row is low for `2 + SETTLE_TICKS` clocks, and for `3 + SETTLE_TICKS + SCAN_IDLE_TICKS` after row 5. (RESET may cut the
gap short: it restarts the scanner.) -/
def Obligations.RowsStayLowBetweenStrobes : Prop :=
  ∀ (s u : State) (gap : Nat), s.ops = [] → s.cfg.wf = true → s.sc.phase = .rowOn → s.input.rst = false →
    step s = .next u → u.sc.phase ≠ .rowOn →
    gap = (if Row.number s.sc.row < 5 then 2 + s.cfg.settleTicks
      else 3 + s.cfg.settleTicks + s.cfg.scanIdleTicks) →
    (∀ k v, k < gap → Host.Core.run core k u = .next v → v.input.rst = false) →
    ∀ k, k < gap → ∃ v, Host.Core.run core k u = .next v ∧ ∀ r : Row, v.out.row[r] = false

/-- The spec's derivation at R99: without RESET a scan cycle takes exactly
`1 + 5 * (ROW_SETUP_TICKS + 2 + SETTLE_TICKS) + SCAN_IDLE_TICKS` clocks from DIRECT to the next DIRECT, whatever the
key levels, and strobes every row and samples its columns. -/
def Obligations.ScanCycleLength : Prop :=
  ∀ (s : State) (length : Nat), s.ops = [] → s.cfg.wf = true → s.sc.phase = .direct →
    length = 1 + 5 * (s.cfg.rowSetupTicks + 2 + s.cfg.settleTicks) + s.cfg.scanIdleTicks →
    (∀ k v, k < length → Host.Core.run core k s = .next v → v.input.rst = false) →
    (∃ t, Host.Core.run core length s = .next t ∧ t.sc.phase = .direct) ∧
    (∀ k, 0 < k → k < length → ∃ v, Host.Core.run core k s = .next v ∧ v.sc.phase ≠ .direct) ∧
    ∀ r : Row, ∃ k v, k < length ∧ Host.Core.run core k s = .next v ∧ v.out.row[r] = true ∧
      ∃ w, step v = .next w ∧ w.sc.phase = .eval1 ∧ w.sc.colSample = v.input.col

/-- The sample a clock takes of a button drives that button's register and its event: in a clock without RESET the
register takes the sample if there is one, and an event is presented in the next clock exactly when the initialising
cycle is over and the sample differs from the register; it names that button and that sample. -/
def Obligations.SamplesDriveButtonsAndEvents : Prop :=
  ∀ s : State, s.ops = [] → s.input.rst = false → ∃ t, step s = .next t ∧
    (∀ b : ButtonId, t.sc.btn[b] = (sampleOf s b).getD s.sc.btn[b]) ∧
    (t.out.evtValid = true ↔
      s.sc.init = false ∧ ∃ (b : ButtonId) (v : Bool), sampleOf s b = some v ∧ v ≠ s.sc.btn[b]) ∧
    (t.out.evtValid = true →
      sampleOf s t.out.evtId = some t.out.evtPressed ∧ t.out.evtPressed ≠ s.sc.btn[t.out.evtId])

/-- In the initialising scan cycle no event is emitted, and in a run of clocks without RESET a button's register ends
with the last sample of it, the first cycle's samples included. -/
def Obligations.FirstCycleInitialisesSilently : Prop :=
  ∀ (s t : State) (visited : List State), Clocks s visited t → (∀ u ∈ visited, u.input.rst = false) →
    (s.sc.init = true → ∀ u ∈ visited, u.sc.init = true → ∃ w, step u = .next w ∧ w.out.evtValid = false) ∧
    (∀ (b : ButtonId) (v : Bool) (before later : List State) (u : State), visited = before ++ u :: later →
      sampleOf u b = some v → (∀ w ∈ later, sampleOf w b = none) → t.sc.btn[b] = v)

/-- Idempotence on unchanged input: in a run of clocks without RESET in which every sample equals the button's register
at the start, no event is emitted and no button register changes. -/
def Obligations.UnchangedSamplesEmitNothing : Prop :=
  ∀ (s t : State) (visited : List State), Clocks s visited t → (∀ u ∈ visited, u.input.rst = false) →
    (∀ u ∈ visited, ∀ (b : ButtonId) (v : Bool), sampleOf u b = some v → v = s.sc.btn[b]) →
    t.sc.btn = s.sc.btn ∧ ∀ u ∈ visited, ∃ w, step u = .next w ∧ w.out.evtValid = false

/-- R54: the button ids: 0 the direct button, `2*(r - 1) + c` the matrix buttons, which lie in 1..10 and are all
different. -/
def Obligations.ButtonIdsNumberTheMatrix : Prop :=
  directButton.val = 0 ∧
  (∀ (r : Row) (c : Column), (matrixButton r c).val = 2 * (Row.number r - 1) + Column.number c ∧
    1 ≤ (matrixButton r c).val ∧ (matrixButton r c).val ≤ 10) ∧
  ∀ (r r' : Row) (c c' : Column), matrixButton r c = matrixButton r' c' → r = r' ∧ c = c'

/-- R118: under the ideal keypad a column is high exactly when a pressed button of it lies in a row that is high. -/
def Obligations.IdealKeypadFollowsRowLines : Prop :=
  ∀ (s : State) (rst setValid direct : Bool) (left right : Value) (pressed : List (Row × Column))
    (rest : List Stimulus),
    s.stim = ⟨rst, setValid, left, right, .matrix direct pressed⟩ :: rest →
    (s.input.col.c1 = true ↔ ∃ r : Row, s.out.row[r] = true ∧ (r, 0) ∈ pressed) ∧
    (s.input.col.c2 = true ↔ ∃ r : Row, s.out.row[r] = true ∧ (r, 1) ∈ pressed) ∧
    s.input.direct = direct

end Scanner

section Ports

/-- R30, and the event port of R32: `seg` and the event port show their registers. -/
def Obligations.SegAndEventPortsShowRegisters : Prop :=
  ∀ s : State, s.out.seg = s.mx.seg ∧ s.out.evtValid = s.sc.evtV ∧ s.out.evtId = s.sc.evtB ∧
    s.out.evtPressed = s.sc.evtP

/-- R56: the informative text of an event word. -/
def Obligations.SinkTextNamesButton : Prop :=
  sinkText 0 true = "Pen button is pressed" ∧ sinkText 0 false = "Pen button is not pressed" ∧
  ∀ k : ButtonId, k ≠ 0 →
    sinkText k true = "Button " ++ Config.buttonName k.val ++ " is pressed" ∧
    sinkText k false = "Button " ++ Config.buttonName k.val ++ " is released"

/-- The stimulus word: SET 5, 1234 is 0x1000504D2, and a word and its stimulus determine each other. -/
def Obligations.StimulusWordRoundTrip : Prop :=
  (∀ keys : Keys, (setClock 5 1234 keys).toWord = 0x1000504D2) ∧
  (∀ x : Stimulus, Stimulus.ofWord x.toWord x.keys = x) ∧
  ∀ (w : StimulusWord) (keys : Keys), (Stimulus.ofWord w keys).toWord = w

end Ports

section Reset

/-- R121: in every state RESET gives every register its reset value; the parameters and the model's own fields stay
(log 12). -/
def Obligations.ResetClearsEveryRegister : Prop :=
  ∀ s : State, exec .reset s = .next
    { s with
      slot := ⟨false, 0, 0⟩
      mx := { digits := ⟨⟨0, 0, 0, 0⟩, ⟨0, 0, 0, 0⟩⟩, seg := 0b0000, phase := .drain, pos := 0, timer := 0 }
      sc :=
        { btn := Vector.replicate 11 false, phase := .direct, row := 0, timer := 0, colSample := ⟨false, false⟩,
          init := true, evtV := false, evtB := 0, evtP := false } }

/-- R79: in a clock with `rst = 1` the mailbox is cleared whatever is SET in it; the outputs of the next clock are the
quiet reset outputs. -/
def Obligations.ResetClockIgnoresSet : Prop :=
  ∀ s : State, s.ops = [] → s.input.rst = true → ∃ u, step s = .next u ∧ u.slot = ⟨false, 0, 0⟩ ∧
    (∀ k : EnableLine, u.out.en[k] = false) ∧ (∀ r : Row, u.out.row[r] = false) ∧ u.out.seg = 0b0000 ∧
    u.out.evtValid = false

/-- R34: the reset values of the registers in the model's reset state, and its quiet outputs. -/
def Obligations.ResetStateHoldsResetValues : Prop :=
  State.reset.slot = ⟨false, 0, 0⟩ ∧
  State.reset.mx = { digits := ⟨⟨0, 0, 0, 0⟩, ⟨0, 0, 0, 0⟩⟩, seg := 0b0000, phase := .drain, pos := 0, timer := 0 } ∧
  (∀ b : ButtonId, State.reset.sc.btn[b] = false) ∧
  State.reset.sc.init = true ∧ State.reset.sc.phase = .direct ∧ Row.number State.reset.sc.row = 1 ∧
  State.reset.sc.timer = 0 ∧ State.reset.sc.colSample = ⟨false, false⟩ ∧ State.reset.sc.evtV = false ∧
  State.reset.sc.evtB = 0 ∧ State.reset.sc.evtP = false ∧
  (∀ k : EnableLine, State.reset.out.en[k] = false) ∧ (∀ r : Row, State.reset.out.row[r] = false) ∧
  State.reset.out.seg = 0b0000 ∧ State.reset.out.evtValid = false

/-- The spec's derivation at R122, in part: the first refresh cycle after a RESET shows the reset digits, whatever is
SET in its DRAIN clock; such a SET stays pending. -/
def Obligations.FirstCycleAfterResetShowsZeros : Prop :=
  ∀ s u : State, exec .reset s = .next u → u.ops = [] → u.input.rst = false →
    ∃ t, step u = .next t ∧ t.mx.digits = ⟨⟨0, 0, 0, 0⟩, ⟨0, 0, 0, 0⟩⟩ ∧ t.mx.pos = 2 ∧ t.mx.phase = .setup ∧
      t.slot.pending = u.input.setValid

end Reset

section Machine

/-- R12: in a clock with `rst = 0` exactly one mailbox operation, one multiplexer step and one scanner step are
performed, each the one whose selector (R58) holds and each from this clock's state and inputs; the next state takes the
mailbox from the first, the multiplexer from the second, the scanner from the third. In a clock with `rst = 1` it is
RESET instead. `clock`, `stim` and `result` are the model's own (log 4, log 5). -/
def Obligations.ClockIsParallelComposition : Prop :=
  ∀ s : State, s.ops = [] →
    (s.input.rst = true → ∃ u, exec .reset s = .next u ∧
      step s = .next { u with clock := s.clock + 1, stim := s.stim.tail }) ∧
    ∀ mailbox mux scanner : Instr, s.input.rst = false →
      (mailbox = .set s.input.setLeft s.input.setRight ∧ s.input.setValid = true ∧ s.mx.phase ≠ .drain ∨
        mailbox = .tryTake ∧ s.input.setValid = false ∧ s.mx.phase = .drain ∨
        mailbox = .setTake s.input.setLeft s.input.setRight ∧ s.input.setValid = true ∧ s.mx.phase = .drain ∨
        mailbox = .slotHold ∧ s.input.setValid = false ∧ s.mx.phase ≠ .drain) →
      (mux = .mxDrain ∧ s.mx.phase = .drain ∨ mux = .mxSetup ∧ s.mx.phase = .setup ∨
        mux = .mxDwell ∧ s.mx.phase = .dwell) →
      (scanner = .scDirect s.input.direct ∧ s.sc.phase = .direct ∨
        scanner = .scRowOn s.input.col.c1 s.input.col.c2 ∧ s.sc.phase = .rowOn ∨
        scanner = .scEval1 ∧ s.sc.phase = .eval1 ∨ scanner = .scEval2 ∧ s.sc.phase = .eval2 ∨
        scanner = .scSettle ∧ s.sc.phase = .settle ∨ scanner = .scIdle ∧ s.sc.phase = .idle) →
      ∃ a b c, exec mailbox s = .next a ∧ exec mux s = .next b ∧ exec scanner s = .next c ∧
        step s = .next
          { s with
            slot := a.slot
            result := a.result
            mx := b.mx
            sc := c.sc
            clock := s.clock + 1
            stim := s.stim.tail }

/-- A well-formed operation goes on exactly where its selector holds; elsewhere it is refused by name. The refusal is
the model's choice (log 3): the spec gives an operation no effect in a clock that does not select it. -/
def Obligations.OperationsRunExactlyWhereSelected : Prop :=
  ∀ (i : Instr) (s : State), i.wf = true →
    (Selected i s → ∃ t, exec i s = .next t) ∧ (¬Selected i s → exec i s = .refused .notSelected)

/-- A requested operation word runs its operation, and nothing else happens in that step; a requested word that is no
operation is refused by name (the model's request, log 2). -/
def Obligations.StepRunsRequestedOperation : Prop :=
  ∀ (s : State) (w : OpWord) (rest : List OpWord), s.ops = w :: rest →
    (∀ i : Instr, decode w = .ok i → step s = exec i { s with ops := rest }) ∧
    (∀ e : DecodeError, decode w = .error e → step s = .refused (.notAnOperation e))

/-- R115: the block never halts: from every state with nothing requested, every number of clocks can pass, whatever the
inputs. -/
def Obligations.ClocksNeverStop : Prop :=
  ∀ (s : State) (n : Nat), s.ops = [] →
    ∃ t, Host.Core.run core n s = .next t ∧ t.ops = [] ∧ t.clock = s.clock + n

/-- Every step, a clock or a requested operation, keeps the invariant of the registers, from every state that meets
it. -/
def Obligations.StepKeepsInvariant : Prop :=
  ∀ s t : State, Inv s → step s = .next t → Inv t

/-- The reset state meets the invariant. -/
def Obligations.ResetStateMeetsInvariant : Prop := Inv State.reset

/-- The multiplexer and the scanner share no register: the display side's next state depends on the display side
and the SET inputs alone, the keypad side's on the keypad side and the key inputs alone. -/
def Obligations.DisplayAndKeypadShareNothing : Prop :=
  ∀ s s' t t' : State, s.ops = [] → s'.ops = [] → s.cfg = s'.cfg → s.input.rst = s'.input.rst →
    step s = .next t → step s' = .next t' →
    (s.mx = s'.mx → s.slot = s'.slot → s.input.setValid = s'.input.setValid → s.input.setLeft = s'.input.setLeft →
      s.input.setRight = s'.input.setRight → t.mx = t'.mx ∧ t.slot = t'.slot) ∧
    (s.sc = s'.sc → s.input.direct = s'.input.direct → s.input.col = s'.input.col → t.sc = t'.sc)

/-- No operation and no clock changes a build-time parameter. -/
def Obligations.ParametersNeverChange : Prop :=
  ∀ s t : State, step s = .next t → t.cfg = s.cfg

end Machine

section Encoding

/-- The decoder reads back every well-formed operation with all its operands (the model's layout, log 1). -/
def Obligations.DecodeInvertsEncode : Prop :=
  ∀ i : Instr, i.wf = true → decode (encode i) = .ok i

/-- Every word that decodes is the word of the operation it decodes to, and that operation is well-formed: no two words
mean the same operation (the model's layout, log 1). -/
def Obligations.EncodeInvertsDecode : Prop :=
  ∀ (w : OpWord) (i : Instr), decode w = .ok i → encode i = w ∧ i.wf = true

/-- The ids of the operation table, read as the low eight bits of an operation word (the model's layout, log 1): each of
the 18 table words reads as its own operation, the operand bits zero; a word with any other id is no operation and is
rejected by name. -/
def Obligations.TableIdsDecodeToOperations : Prop :=
  decodeTableWord 8 0x01 = some (.decompose 0) ∧ decodeTableWord 8 0x11 = some (.encode 0) ∧
  decodeTableWord 8 0x12 = some .encodeBlank ∧ decodeTableWord 8 0x21 = some (.set 0 0) ∧
  decodeTableWord 8 0x22 = some .tryTake ∧ decodeTableWord 8 0x23 = some (.setTake 0 0) ∧
  decodeTableWord 8 0x24 = some .slotHold ∧ decodeTableWord 8 0x31 = some .mxDrain ∧
  decodeTableWord 8 0x32 = some .mxSetup ∧ decodeTableWord 8 0x33 = some .mxDwell ∧
  decodeTableWord 8 0x41 = some (.scDirect false) ∧ decodeTableWord 8 0x42 = some (.scRowOn false false) ∧
  decodeTableWord 8 0x43 = some .scEval1 ∧ decodeTableWord 8 0x44 = some .scEval2 ∧
  decodeTableWord 8 0x45 = some .scSettle ∧ decodeTableWord 8 0x46 = some .scIdle ∧
  decodeTableWord 8 0x47 = some (.edge 0 false) ∧ decodeTableWord 8 0x71 = some .reset ∧
  ∀ w : OpWord,
    (opIdOf w).toNat ∉ [0x01, 0x11, 0x12, 0x21, 0x22, 0x23, 0x24, 0x31, 0x32, 0x33, 0x41, 0x42, 0x43, 0x44, 0x45,
      0x46, 0x47, 0x71] →
    decode w = .error .unknownOperation

end Encoding
end

