-- ==== Sys2Proof/Laws/Decode.lean ====
section
/-! SUPPORT. The two fields of an operation word, put together and taken apart. -/

namespace Sys2Proof

theorem opIdOf_append (operand : BitVec 32) (id : BitVec 8) : opIdOf (operand ++ id) = id := by
  apply BitVec.eq_of_getLsbD_eq
  intro k hk
  simp only [opIdOf, BitVec.getLsbD_setWidth, BitVec.getLsbD_append]
  simp [hk]

theorem operandOf_append (operand : BitVec 32) (id : BitVec 8) : operandOf (operand ++ id) = operand := by
  apply BitVec.eq_of_getLsbD_eq
  intro k hk
  simp only [operandOf, BitVec.getLsbD_extractLsb', BitVec.getLsbD_append]
  simp [hk]

theorem operand_append_opId (w : OpWord) : operandOf w ++ opIdOf w = w := by
  apply BitVec.eq_of_getLsbD_eq
  intro k hk
  simp only [operandOf, opIdOf, BitVec.getLsbD_extractLsb', BitVec.getLsbD_append, BitVec.getLsbD_setWidth]
  by_cases h : k < 8
  · simp [h]
  · simp [h, show k - 8 < 32 from by omega, show 8 + (k - 8) = k from by omega]

/-- The decoder reads a word by its id and its operand field. -/
theorem decode_append (operand : BitVec 32) (id : BitVec 8) :
    decode (operand ++ id) = decodeFields id.toNat operand := by
  unfold decode
  rw [opIdOf_append, operandOf_append]

end Sys2Proof
end

