-- ==== Sys2Proof/Laws/State.lean ====
section
/-! SUPPORT. One lemma per field per update of the state, so that no later proof unfolds a record update. -/

namespace Sys2Proof.Machine

open Sys2Proof

section resetRegisters
variable (s : State)

@[simp] theorem resetRegisters_cfg : s.resetRegisters.cfg = s.cfg := rfl
@[simp] theorem resetRegisters_slot : s.resetRegisters.slot = Mailbox.reset := rfl
@[simp] theorem resetRegisters_mx : s.resetRegisters.mx = Mux.reset := rfl
@[simp] theorem resetRegisters_sc : s.resetRegisters.sc = Scanner.reset := rfl
@[simp] theorem resetRegisters_result : s.resetRegisters.result = s.result := rfl
@[simp] theorem resetRegisters_clock : s.resetRegisters.clock = s.clock := rfl
@[simp] theorem resetRegisters_stim : s.resetRegisters.stim = s.stim := rfl
@[simp] theorem resetRegisters_ops : s.resetRegisters.ops = s.ops := rfl

end resetRegisters

section advance
variable (s : State)

@[simp] theorem advance_cfg : s.advance.cfg = s.cfg := rfl
@[simp] theorem advance_slot : s.advance.slot = s.slot := rfl
@[simp] theorem advance_mx : s.advance.mx = s.mx := rfl
@[simp] theorem advance_sc : s.advance.sc = s.sc := rfl
@[simp] theorem advance_result : s.advance.result = s.result := rfl
@[simp] theorem advance_clock : s.advance.clock = s.clock + 1 := rfl
@[simp] theorem advance_stim : s.advance.stim = s.stim.tail := rfl
@[simp] theorem advance_ops : s.advance.ops = s.ops := rfl

end advance

section resetValues

@[simp] theorem muxReset_phase : Mux.reset.phase = .drain := rfl
@[simp] theorem muxReset_timer : Mux.reset.timer = 0 := rfl
@[simp] theorem scannerReset_phase : Scanner.reset.phase = .direct := rfl
@[simp] theorem scannerReset_timer : Scanner.reset.timer = 0 := rfl
@[simp] theorem scannerReset_init : Scanner.reset.init = true := rfl
@[simp] theorem scannerReset_evtV : Scanner.reset.evtV = false := rfl
@[simp] theorem mailboxReset_pending : Mailbox.reset.pending = false := rfl

end resetValues

section strobe
variable (m : Mux) (cfg : Config) (p : Position)

@[simp] theorem muxStrobe_digits : (m.strobe cfg p).digits = m.digits := rfl
@[simp] theorem muxStrobe_seg : (m.strobe cfg p).seg = encodeDigit (m.digits.digit p) := rfl
@[simp] theorem muxStrobe_phase : (m.strobe cfg p).phase = .setup := rfl
@[simp] theorem muxStrobe_pos : (m.strobe cfg p).pos = p := rfl
@[simp] theorem muxStrobe_timer : (m.strobe cfg p).timer = cfg.setupTicks - 1 := rfl

end strobe

section scanner
variable (sc : Scanner) (cfg : Config) (b : ButtonId) (v : Bool) (r : Row)

@[simp] theorem emit_btn : (sc.emit b v).btn = sc.btn := rfl
@[simp] theorem emit_evtV : (sc.emit b v).evtV = true := rfl
@[simp] theorem emit_evtB : (sc.emit b v).evtB = b := rfl
@[simp] theorem emit_evtP : (sc.emit b v).evtP = v := rfl
@[simp] theorem emit_init : (sc.emit b v).init = sc.init := rfl
@[simp] theorem emit_phase : (sc.emit b v).phase = sc.phase := rfl
@[simp] theorem emit_row : (sc.emit b v).row = sc.row := rfl
@[simp] theorem emit_timer : (sc.emit b v).timer = sc.timer := rfl
@[simp] theorem emit_colSample : (sc.emit b v).colSample = sc.colSample := rfl

@[simp] theorem noEvent_btn : sc.noEvent.btn = sc.btn := rfl
@[simp] theorem noEvent_evtV : sc.noEvent.evtV = false := rfl
@[simp] theorem noEvent_evtB : sc.noEvent.evtB = sc.evtB := rfl
@[simp] theorem noEvent_evtP : sc.noEvent.evtP = sc.evtP := rfl
@[simp] theorem noEvent_init : sc.noEvent.init = sc.init := rfl
@[simp] theorem noEvent_phase : sc.noEvent.phase = sc.phase := rfl
@[simp] theorem noEvent_row : sc.noEvent.row = sc.row := rfl
@[simp] theorem noEvent_timer : sc.noEvent.timer = sc.timer := rfl
@[simp] theorem noEvent_colSample : sc.noEvent.colSample = sc.colSample := rfl

@[simp] theorem setBtn_btn : (sc.setBtn b v).btn = sc.btn.set b.val v b.isLt := rfl
@[simp] theorem setBtn_evtV : (sc.setBtn b v).evtV = sc.evtV := rfl
@[simp] theorem setBtn_evtB : (sc.setBtn b v).evtB = sc.evtB := rfl
@[simp] theorem setBtn_evtP : (sc.setBtn b v).evtP = sc.evtP := rfl
@[simp] theorem setBtn_init : (sc.setBtn b v).init = sc.init := rfl
@[simp] theorem setBtn_phase : (sc.setBtn b v).phase = sc.phase := rfl
@[simp] theorem setBtn_row : (sc.setBtn b v).row = sc.row := rfl
@[simp] theorem setBtn_timer : (sc.setBtn b v).timer = sc.timer := rfl
@[simp] theorem setBtn_colSample : (sc.setBtn b v).colSample = sc.colSample := rfl

@[simp] theorem scannerStrobe_btn : (sc.strobe cfg r).btn = sc.btn := rfl
@[simp] theorem scannerStrobe_evtV : (sc.strobe cfg r).evtV = sc.evtV := rfl
@[simp] theorem scannerStrobe_evtB : (sc.strobe cfg r).evtB = sc.evtB := rfl
@[simp] theorem scannerStrobe_evtP : (sc.strobe cfg r).evtP = sc.evtP := rfl
@[simp] theorem scannerStrobe_init : (sc.strobe cfg r).init = sc.init := rfl
@[simp] theorem scannerStrobe_phase : (sc.strobe cfg r).phase = .rowOn := rfl
@[simp] theorem scannerStrobe_row : (sc.strobe cfg r).row = r := rfl
@[simp] theorem scannerStrobe_timer : (sc.strobe cfg r).timer = cfg.rowSetupTicks - 1 := rfl
@[simp] theorem scannerStrobe_colSample : (sc.strobe cfg r).colSample = sc.colSample := rfl

end scanner

end Sys2Proof.Machine
end

