-- ==== Sys2Proof/Laws/Ops.lean ====
section
/-! SUPPORT. One lemma per shared operation that says everything it can do; later proofs cite it and do not unfold the
operation. -/

namespace Sys2Proof.Machine

open Sys2Proof

/-- A guarded meaning goes on exactly where its selector holds. -/
theorem whenSelected_eq_next {p : Prop} [Decidable p] {t u : State} :
    whenSelected p t = .next u ↔ p ∧ u = t := by
  unfold whenSelected
  split <;> simp_all [eq_comm]

theorem whenSelected_of {p : Prop} [Decidable p] (h : p) (t : State) : whenSelected p t = .next t := if_pos h

theorem whenSelected_of_not {p : Prop} [Decidable p] (h : ¬p) (t : State) :
    whenSelected p t = .refused .notSelected := if_neg h

@[simp] theorem andThen_next (t : State) (f : State → Result) : andThen (.next t) f = f t := rfl

/-- A sequence goes on exactly when both parts do. -/
theorem andThen_eq_next {r : Result} {f : State → Result} {u : State} :
    andThen r f = .next u ↔ ∃ t, r = .next t ∧ f t = .next u := by
  cases r <;> simp [andThen]

/-- The mailbox's next state, field by field (R72). -/
theorem mailboxNext_cases (m : Mailbox) (take : Bool) (set : Option DisplayValue) :
    (∃ v, set = some v ∧ m.next take set = ⟨true, v.left, v.right⟩) ∨
      (set = none ∧ m.next take set = ⟨m.pending && !take, m.left, m.right⟩) := by
  cases set <;> simp [Mailbox.next]

/-- What MX_SETUP can do (R84). -/
theorem muxSetup_cases (m : Mux) (cfg : Config) :
    (0 < m.timer ∧ m.setup cfg = { m with timer := m.timer - 1 }) ∨
      (m.timer = 0 ∧ m.setup cfg = { m with phase := .dwell, timer := cfg.dwellTicks - 1 }) := by
  unfold Mux.setup
  split
  · exact .inl ⟨‹_›, rfl⟩
  · exact .inr ⟨by omega, rfl⟩

/-- What MX_DWELL can do (R85). -/
theorem muxDwell_cases (m : Mux) (cfg : Config) :
    (0 < m.timer ∧ m.dwell cfg = { m with timer := m.timer - 1 }) ∨
      (m.timer = 0 ∧ ∃ q, m.digits.nextShown m.pos = some q ∧ m.dwell cfg = m.strobe cfg q) ∨
      (m.timer = 0 ∧ m.digits.nextShown m.pos = none ∧ m.dwell cfg = { m with phase := .drain }) := by
  unfold Mux.dwell
  split
  · exact .inl ⟨‹_›, rfl⟩
  · cases h : m.digits.nextShown m.pos with
    | none => exact .inr (.inr ⟨by omega, rfl, rfl⟩)
    | some q => exact .inr (.inl ⟨by omega, q, rfl, rfl⟩)

/-- What EDGE can do (R91): initialise, emit, or nothing. -/
theorem edge_cases (sc : Scanner) (b : ButtonId) (v : Bool) :
    (sc.init = true ∧ sc.edge b v = (sc.setBtn b v).noEvent) ∨
      (sc.init = false ∧ v ≠ sc.btn[b] ∧ sc.edge b v = (sc.setBtn b v).emit b v) ∨
      (sc.init = false ∧ v = sc.btn[b] ∧ sc.edge b v = sc.noEvent) := by
  unfold Scanner.edge
  by_cases hi : sc.init = true
  · exact .inl ⟨hi, if_pos hi⟩
  · have hf : sc.init = false := by simpa using hi
    rw [if_neg hi]
    by_cases hv : v ≠ sc.btn[b]
    · exact .inr (.inl ⟨hf, hv, if_pos hv⟩)
    · exact .inr (.inr ⟨hf, not_not.mp hv, if_neg hv⟩)

/-- EDGE leaves the sequencer, the columns and the initialisation flag alone. -/
theorem edge_frame (sc : Scanner) (b : ButtonId) (v : Bool) :
    (sc.edge b v).phase = sc.phase ∧ (sc.edge b v).row = sc.row ∧ (sc.edge b v).timer = sc.timer ∧
      (sc.edge b v).colSample = sc.colSample ∧ (sc.edge b v).init = sc.init := by
  rcases edge_cases sc b v with ⟨_, h⟩ | ⟨_, _, h⟩ | ⟨_, _, h⟩ <;> simp [h]

/-- What SC_ROW_ON can do (R94). -/
theorem scannerRowOn_cases (sc : Scanner) (col : Columns) :
    (0 < sc.timer ∧ sc.rowOn col = { sc.noEvent with timer := sc.timer - 1 }) ∨
      (sc.timer = 0 ∧ sc.rowOn col = { sc.noEvent with colSample := col, phase := .eval1 }) := by
  unfold Scanner.rowOn
  split
  · exact .inl ⟨‹_›, rfl⟩
  · exact .inr ⟨by omega, rfl⟩

/-- What SC_SETTLE can do (R97). -/
theorem scannerSettle_cases (sc : Scanner) (cfg : Config) :
    (0 < sc.timer ∧ sc.settle cfg = { sc.noEvent with timer := sc.timer - 1 }) ∨
      (sc.timer = 0 ∧ ∃ r : Row, sc.row.val < 4 ∧ r.val = sc.row.val + 1 ∧ sc.settle cfg = sc.noEvent.strobe cfg r) ∨
      (sc.timer = 0 ∧ sc.row.val = 4 ∧ 0 < cfg.scanIdleTicks ∧
        sc.settle cfg = { sc.noEvent with init := false, timer := cfg.scanIdleTicks - 1, phase := .idle }) ∨
      (sc.timer = 0 ∧ sc.row.val = 4 ∧ cfg.scanIdleTicks = 0 ∧
        sc.settle cfg = { sc.noEvent with init := false, phase := .direct }) := by
  unfold Scanner.settle
  split
  · exact .inl ⟨‹_›, rfl⟩
  · have ht : sc.timer = 0 := by omega
    split
    · rename_i h
      exact .inr (.inl ⟨ht, ⟨sc.row.val + 1, by omega⟩, h, rfl, rfl⟩)
    · have hr : sc.row.val = 4 := by omega
      by_cases hc : 0 < cfg.scanIdleTicks
      · exact .inr (.inr (.inl ⟨ht, hr, hc, if_pos hc⟩))
      · exact .inr (.inr (.inr ⟨ht, hr, by omega, if_neg hc⟩))

/-- What SC_IDLE can do (R98). -/
theorem scannerIdle_cases (sc : Scanner) :
    (0 < sc.timer ∧ sc.idle = { sc.noEvent with timer := sc.timer - 1 }) ∨
      (sc.timer = 0 ∧ sc.idle = { sc.noEvent with phase := .direct }) := by
  unfold Scanner.idle
  split
  · exact .inl ⟨‹_›, rfl⟩
  · exact .inr ⟨by omega, rfl⟩

/-- The step without a request is a clock. -/
theorem step_clock {s : State} (h : s.ops = []) : step s = clockStep s := by
  unfold step
  rw [h]

/-- The multiplexer's registers after a clock with `rst = 0`. -/
def muxAfter (s : State) : Mux :=
  match s.mx.phase with
  | .drain => s.mx.drain s.cfg s.slot.taken
  | .setup => s.mx.setup s.cfg
  | .dwell => s.mx.dwell s.cfg

/-- The scanner's registers after a clock with `rst = 0` and the inputs `x`. -/
def scannerAfter (s : State) (x : Input) : Scanner :=
  match s.sc.phase with
  | .direct => s.sc.direct s.cfg x.direct
  | .rowOn => s.sc.rowOn x.col
  | .eval1 => s.sc.eval1
  | .eval2 => s.sc.eval2 s.cfg
  | .settle => s.sc.settle s.cfg
  | .idle => s.sc.idle

/-- The mailbox after a clock with `rst = 0` and the inputs `x`. -/
def mailboxAfter (s : State) (x : Input) : Mailbox :=
  s.slot.next (decide (s.mx.phase = .drain)) (if x.setValid then some ⟨x.setLeft, x.setRight⟩ else none)

/-- The answer of the mailbox operation of a clock. -/
def resultAfter (s : State) : OpResult :=
  if s.mx.phase = .drain then .taken s.slot.taken else s.result

/-- A clock with `rst = 0`, in closed form. -/
theorem clockStep_running {s : State} (h : s.input.rst = false) :
    clockStep s = .next
      { s with
        slot := mailboxAfter s s.input
        result := resultAfter s
        mx := muxAfter s
        sc := scannerAfter s s.input
        clock := s.clock + 1
        stim := s.stim.tail } := by
  have hmux : exec (selectMux s) s = .next
      { s with slot := if s.mx.phase = .drain then s.slot.next true none else s.slot, mx := muxAfter s } := by
    cases hp : s.mx.phase <;>
      simp [selectMux, exec, execMxDrain, execMxSetup, execMxDwell, whenSelected, muxAfter, hp]
  have hsc : exec (selectScanner s s.input) s = .next { s with sc := scannerAfter s s.input } := by
    cases hp : s.sc.phase <;>
      simp [selectScanner, exec, execScDirect, execScRowOn, execScEval1, execScEval2, execScSettle, execScIdle,
        whenSelected, scannerAfter, hp]
  have hmb : exec (selectMailbox s s.input) s = .next
      { s with slot := mailboxAfter s s.input, result := resultAfter s } := by
    by_cases hp : s.mx.phase = .drain <;> cases hv : s.input.setValid <;>
      simp [selectMailbox, exec, execSet, execTryTake, execSetTake, execSlotHold, whenSelected, mailboxAfter,
        resultAfter, hp, hv]
  simp [clockStep, h, compose, hmux, hsc, hmb, State.advance]

/-- A clock with `rst = 1` (R121). -/
theorem clockStep_reset {s : State} (h : s.input.rst = true) :
    clockStep s = .next s.resetRegisters.advance := by
  simp [clockStep, h, exec, execReset]

/-- A clock always goes on. -/
theorem clockStep_cases (s : State) :
    (s.input.rst = true ∧ clockStep s = .next s.resetRegisters.advance) ∨
      (s.input.rst = false ∧ clockStep s = .next
        { s with
          slot := mailboxAfter s s.input
          result := resultAfter s
          mx := muxAfter s
          sc := scannerAfter s s.input
          clock := s.clock + 1
          stim := s.stim.tail }) := by
  cases h : s.input.rst
  · exact .inr ⟨rfl, clockStep_running h⟩
  · exact .inl ⟨rfl, clockStep_reset h⟩

/-- The step without a request and without RESET, in closed form. -/
theorem step_running {s : State} (h : s.ops = []) (hr : s.input.rst = false) :
    step s = .next
      { s with
        slot := mailboxAfter s s.input
        result := resultAfter s
        mx := muxAfter s
        sc := scannerAfter s s.input
        clock := s.clock + 1
        stim := s.stim.tail } :=
  (step_clock h).trans (clockStep_running hr)

/-- The step with `rst = 1` and without a request (R121). -/
theorem step_reset {s : State} (h : s.ops = []) (hr : s.input.rst = true) :
    step s = .next s.resetRegisters.advance :=
  (step_clock h).trans (clockStep_reset hr)

end Sys2Proof.Machine
end

