-- ==== Sys2Proof/Laws/PerInstr.lean ====
section
/-! SUPPORT. One lemma per constructor: the encoded word carries the operation's id of R58 in its low eight bits and its
operand field above, so that the decoder's dispatch reaches that operation's own case. -/

namespace Sys2Proof.Laws.CarriesId

open Sys2Proof

/-- The word of `i` has the id of `i` and the operand field of `i`. -/
def Statement (i : Instr) : Prop := opIdOf (encode i) = i.opId ∧ operandOf (encode i) = i.operand

theorem holds (i : Instr) : Statement i := ⟨opIdOf_append _ _, operandOf_append _ _⟩

theorem decompose (v : Value) : Statement (.decompose v) := holds _
theorem encode (code : BitVec 4) : Statement (.encode code) := holds _
theorem encodeBlank : Statement .encodeBlank := holds _
theorem set (left right : Value) : Statement (.set left right) := holds _
theorem tryTake : Statement .tryTake := holds _
theorem setTake (left right : Value) : Statement (.setTake left right) := holds _
theorem slotHold : Statement .slotHold := holds _
theorem mxDrain : Statement .mxDrain := holds _
theorem mxSetup : Statement .mxSetup := holds _
theorem mxDwell : Statement .mxDwell := holds _
theorem scDirect (direct : Bool) : Statement (.scDirect direct) := holds _
theorem scRowOn (col1 col2 : Bool) : Statement (.scRowOn col1 col2) := holds _
theorem scEval1 : Statement .scEval1 := holds _
theorem scEval2 : Statement .scEval2 := holds _
theorem scSettle : Statement .scSettle := holds _
theorem scIdle : Statement .scIdle := holds _
theorem edge (b : ButtonId) (s : Bool) : Statement (.edge b s) := holds _
theorem reset : Statement .reset := holds _

end Sys2Proof.Laws.CarriesId
end

