-- ==== Sys2Proof/Tests/Slice0.lean ====
section
/-! SUPPORT. Tests. Expected values come from the worked examples and vectors of spec/95_test_vectors.md (S1 to S11,
V1 to V7), from the examples inside the rules, or from a word written out by hand from the layout of log 1. The last
section shows, for every statement with hypotheses, a state that meets them. -/

namespace Sys2Proof.Tests

open Sys2Proof Sys2Proof.Machine

section Helpers

/-- A clock without RESET and without SET, both columns low. -/
def quiet (direct : Bool) : Stimulus := tickClock (.levels direct ⟨false, false⟩)

/-- A clock with a SET. -/
def sets (left right : Value) : Stimulus := setClock left right noKeys

/-- The reset state with the given multiplexer registers. -/
def mxAt (d : DigitFile) (seg : Pattern) (phase : MxPhase) (pos : Position) (timer : Nat) : State :=
  { State.reset with mx := ⟨d, seg, phase, pos, timer⟩ }

/-- The reset state with the given scanner sequencer, past the initialising cycle. -/
def scAt (phase : ScPhase) (row : Row) (timer : Nat) (col : Columns) : State :=
  { State.reset with
    sc := { Scanner.reset with phase := phase, row := row, timer := timer, colSample := col, init := false } }

def zeros : DigitFile := ⟨⟨0, 0, 0, 0⟩, ⟨0, 0, 0, 0⟩⟩

/-- The digits of 5 and 1234. -/
def digitsP1 : DigitFile := ⟨⟨0, 0, 0, 5⟩, ⟨1, 2, 3, 4⟩⟩

def fill (pending : Bool) (left right : Value) (s : State) : State := { s with slot := ⟨pending, left, right⟩ }

def queue (xs : List Stimulus) (s : State) : State := { s with stim := xs }

/-- What a step answers, read through a projection. -/
def after {α : Type} (r : Result) (f : State → α) : Option α :=
  match r with
  | .next t => some (f t)
  | .fault _ => none
  | .refused _ => none

/-- The next state; a stop leaves the state alone (not used where it could). -/
def nextOf (s : State) : State :=
  match step s with
  | .next t => t
  | .fault _ => s
  | .refused _ => s

/-- The states of `n` clocks from `s`, and the state after them. -/
def walk (n : Nat) (s : State) : List State × State :=
  match n with
  | 0 => ([], s)
  | k + 1 => (s :: (walk k (nextOf s)).1, (walk k (nextOf s)).2)

/-- Nothing is requested in the `n` clocks from `s`. -/
def unrequested (n : Nat) (s : State) : Bool := (walk n s).1.all fun u => decide (u.ops = [])

/-- A clock always goes on. -/
theorem step_nextOf {s : State} (h : s.ops = []) : step s = .next (nextOf s) := by
  unfold nextOf
  rw [step_clock h]
  rcases clockStep_cases s with ⟨_, hc⟩ | ⟨_, hc⟩ <;> rw [hc]

theorem clocks_walk (n : Nat) (s : State) (h : unrequested n s = true) : Clocks s (walk n s).1 (walk n s).2 := by
  induction n generalizing s with
  | zero => exact .nil s
  | succ n ih =>
    simp only [unrequested, walk, List.all_cons, Bool.and_eq_true, decide_eq_true_eq] at h
    exact .cons h.1 (step_nextOf h.1) (ih (nextOf s) h.2)

/-- No RESET in the `n` clocks from `s`. -/
theorem run_quiet (n : Nat) (s : State) (h : unrequested n s = true)
    (hr : ((walk n s).1.all fun u => !u.input.rst) = true) :
    ∀ k v, k < n → Host.Core.run core k s = .next v → v.input.rst = false := by
  induction n generalizing s with
  | zero => intro k v hk; omega
  | succ n ih =>
    simp only [unrequested, walk, List.all_cons, Bool.and_eq_true, decide_eq_true_eq, Bool.not_eq_true'] at h hr
    intro k v hk hv
    cases k with
    | zero => cases hv; exact hr.1
    | succ k =>
      have hs : core.step s = .next (nextOf s) := step_nextOf h.1
      simp only [Host.Core.run, hs] at hv
      exact ih (nextOf s) h.2 hr.2 k v (by omega) hv

end Helpers

section Wellformedness

/-- U1: the only operand the spec refuses is a digit code 10..15. -/
theorem test_wf_refuses_encode_10 : (Instr.encode 10).wf = false := by decide
theorem test_wf_refuses_encode_15 : (Instr.encode 15).wf = false := by decide
theorem test_wf_accepts_encode_9 : (Instr.encode 9).wf = true := by decide

end Wellformedness

section Decoding

/-! Words by hand: the operand field (32 bits) over the id (8 bits). -/

theorem test_decode_decompose_1234 : decode 0b0000000000000000000001001101001000000001 = .ok (.decompose 1234) := by
  decide
theorem test_decode_encode_5 : decode 0b0000000000000000000000000000010100010001 = .ok (.encode 5) := by decide
theorem test_decode_encode_blank : decode 0b0000000000000000000000000000000000010010 = .ok .encodeBlank := by decide
theorem test_decode_set_5_1234 : decode 0b0000000000000101000001001101001000100001 = .ok (.set 5 1234) := by decide
theorem test_decode_try_take : decode 0b0000000000000000000000000000000000100010 = .ok .tryTake := by decide
theorem test_decode_set_take_7_8 : decode 0b0000000000000111000000000000100000100011 = .ok (.setTake 7 8) := by decide
theorem test_decode_slot_hold : decode 0b0000000000000000000000000000000000100100 = .ok .slotHold := by decide
theorem test_decode_mx_drain : decode 0b0000000000000000000000000000000000110001 = .ok .mxDrain := by decide
theorem test_decode_mx_setup : decode 0b0000000000000000000000000000000000110010 = .ok .mxSetup := by decide
theorem test_decode_mx_dwell : decode 0b0000000000000000000000000000000000110011 = .ok .mxDwell := by decide
theorem test_decode_sc_direct : decode 0b0000000000000000000000000000000101000001 = .ok (.scDirect true) := by decide
theorem test_decode_sc_row_on : decode 0b0000000000000000000000000000000101000010 = .ok (.scRowOn true false) := by
  decide
theorem test_decode_sc_eval1 : decode 0b0000000000000000000000000000000001000011 = .ok .scEval1 := by decide
theorem test_decode_sc_eval2 : decode 0b0000000000000000000000000000000001000100 = .ok .scEval2 := by decide
theorem test_decode_sc_settle : decode 0b0000000000000000000000000000000001000101 = .ok .scSettle := by decide
theorem test_decode_sc_idle : decode 0b0000000000000000000000000000000001000110 = .ok .scIdle := by decide
theorem test_decode_edge_5_pressed : decode 0b0000000000000000000000000001010101000111 = .ok (.edge 5 true) := by decide
theorem test_decode_reset : decode 0b0000000000000000000000000000000001110001 = .ok .reset := by decide

theorem test_reject_unknown_id : decode 0x00 = .error .unknownOperation := by decide
theorem test_reject_reserved_bit : decode 0x100000071 = .error .reservedOperandBits := by decide
theorem test_reject_digit_10 : decode 0b101000010001 = .error .reservedDigitCode := by decide
theorem test_reject_button_11 : decode 0b101101000111 = .error .reservedButtonId := by decide

/-- The stimulus words of programs P1, P3 and the RESET word (R57, 95_test_vectors.md section 3). -/
theorem test_stimulus_words :
    (setClock 5 1234 noKeys).toWord = 0x1000504D2 ∧ (setClock 20000 500 noKeys).toWord = 0x14E2001F4 ∧
      (resetClock noKeys).toWord = 0x200000000 ∧ (tickClock noKeys).toWord = 0x000000000 := by decide

/-- R55: `evt_pressed` over `evt_id`. -/
theorem test_event_word : eventWord 10 true = 0b11010 ∧ eventWord 5 false = 0b00101 := by decide

/-- R59: the codes of the phases and the row. -/
theorem test_phase_codes :
    MxPhase.code .drain = 0 ∧ MxPhase.code .setup = 1 ∧ MxPhase.code .dwell = 2 ∧ ScPhase.code .direct = 0 ∧
      ScPhase.code .rowOn = 1 ∧ ScPhase.code .eval1 = 2 ∧ ScPhase.code .eval2 = 3 ∧ ScPhase.code .settle = 4 ∧
      ScPhase.code .idle = 5 ∧ rowCode 0 = 1 ∧ rowCode 4 = 5 := by decide

end Decoding

section Operations

/-- V1. -/
theorem test_decompose_vectors :
    decomposeValue 0 = ⟨0, 0, 0, 0⟩ ∧ decomposeValue 1005 = ⟨1, 0, 0, 5⟩ ∧ decomposeValue 9998 = ⟨9, 9, 9, 8⟩ ∧
      decomposeValue 10000 = ⟨9, 9, 9, 9⟩ ∧ decomposeValue 65535 = ⟨9, 9, 9, 9⟩ := by decide

/-- The worked example of R64, through the step. -/
theorem test_decompose_1234 :
    after (step (State.reset.withFetchWord 40 0x0004D201)) State.result = some (.digits ⟨1, 2, 3, 4⟩) := by decide

/-- V2. -/
theorem test_encode_6 : after (exec (.encode 6) State.reset) State.result = some (.pattern 0b0110) := by decide
theorem test_encode_10_refused : exec (.encode 10) State.reset = .refused .reservedDigitCode := rfl
theorem test_encode_blank : after (exec .encodeBlank State.reset) State.result = some (.pattern 0b0000) := by decide

/-- V3 row 3. -/
theorem test_set_overwrites :
    after (exec (.set 3 4) (fill true 1 2 (mxAt zeros 0 .setup 2 0))) State.slot = some ⟨true, 3, 4⟩ := by decide

/-- V3 rows 4 and 5. -/
theorem test_try_take :
    after (exec .tryTake (fill true 3 4 State.reset)) State.result = some (.taken (some ⟨3, 4⟩)) ∧
      after (exec .tryTake State.reset) State.result = some (.taken none) := by decide

/-- V3 rows 6 and 7. -/
theorem test_set_take :
    after (exec (.setTake 7 8) State.reset) (fun t => (t.result, t.slot)) = some (.taken none, ⟨true, 7, 8⟩) ∧
      after (exec (.setTake 7 8) (fill true 1 2 State.reset)) (fun t => (t.result, t.slot))
        = some (.taken (some ⟨1, 2⟩), ⟨true, 7, 8⟩) := by decide

/-- V3 row 8. -/
theorem test_slot_hold :
    after (exec .slotHold (fill true 3 4 (mxAt zeros 0 .dwell 2 1))) State.slot = some ⟨true, 3, 4⟩ := by decide

/-- V5 rows 1 and 2. -/
theorem test_mx_drain :
    after (exec .mxDrain (fill true 5 1234 State.reset)) State.mx = some ⟨digitsP1, 0b0000, .setup, 2, 0⟩ ∧
      after (exec .mxDrain (mxAt ⟨⟨0, 0, 0, 3⟩, ⟨0, 0, 0, 4⟩⟩ 0b0100 .drain 7 0)) State.mx
        = some ⟨⟨⟨0, 0, 0, 3⟩, ⟨0, 0, 0, 4⟩⟩, 0b0000, .setup, 2, 0⟩ := by decide

/-- V5 row 8: the mask is that of the new digits. -/
theorem test_mx_drain_blanks_at_once :
    after (exec .mxDrain (fill true 0 0 (mxAt ⟨⟨1, 2, 3, 4⟩, ⟨1, 2, 3, 4⟩⟩ 0b0100 .drain 7 0))) State.mx
      = some ⟨zeros, 0b0000, .setup, 2, 0⟩ := by decide

/-- V5 row 3. -/
theorem test_mx_setup :
    after (exec .mxSetup (mxAt zeros 0 .setup 2 0)) State.mx = some ⟨zeros, 0, .dwell, 2, 1⟩ := by decide

/-- V5 rows 4 to 7. -/
theorem test_mx_dwell_goes_on :
    after (exec .mxDwell (mxAt zeros 0 .dwell 2 1)) State.mx = some ⟨zeros, 0, .dwell, 2, 0⟩ ∧
      after (exec .mxDwell (mxAt digitsP1 0b0101 .dwell 3 0)) State.mx = some ⟨digitsP1, 0b0001, .setup, 4, 0⟩ := by
  decide
theorem test_mx_dwell_ends :
    after (exec .mxDwell (mxAt digitsP1 0b0100 .dwell 7 0)) (fun t => (t.mx.phase, t.mx.seg)) = some (.drain, 0b0100) ∧
      after (exec .mxDwell (mxAt ⟨⟨9, 9, 9, 9⟩, ⟨0, 5, 0, 0⟩⟩ 0b1001 .dwell 3 0)) (fun t => (t.mx.pos, t.mx.seg))
        = some (5, 0b0101) := by decide

/-- The worked example of R91: EDGE(5, 1) emits (5, pressed); and the initialising cycle stays silent (R102). -/
theorem test_edge_emits :
    after (exec (.edge 5 true) (scAt .eval1 2 0 ⟨true, false⟩)) (fun t => (t.sc.btn[5], t.out.evtValid, t.out.evtId,
      t.out.evtPressed)) = some (true, true, 5, true) := by decide
theorem test_edge_initialises :
    after (exec (.edge 5 true) State.reset) (fun t => (t.sc.btn[5], t.out.evtValid)) = some (true, false) := by decide

/-- The worked example of R93, and V6 row 3's polarity. -/
theorem test_sc_direct_pressed :
    after (exec (.scDirect true) (scAt .direct 4 0 ⟨false, false⟩)) (fun t => (t.out.evtId, t.out.evtValid, t.sc.row,
      t.sc.phase)) = some (0, true, 0, .rowOn) := by decide
theorem test_sc_direct_low_active :
    after (exec (.scDirect false)
        { scAt .direct 4 0 ⟨false, false⟩ with cfg := { Config.default with directPressedLevel := false } })
      (fun t => (t.sc.btn[0], t.out.evtValid)) = some (true, true) := by decide

/-- The worked example of R94. -/
theorem test_sc_row_on :
    after (exec (.scRowOn true false) (scAt .rowOn 2 0 ⟨false, false⟩)) (fun t => (t.sc.colSample, t.sc.phase))
      = some (⟨true, false⟩, .eval1) := by decide

/-- The worked examples of R95 and R96: row 3 holds the buttons 5 and 6. -/
theorem test_sc_eval1 :
    after (exec .scEval1 (scAt .eval1 2 0 ⟨true, false⟩)) (fun t => (t.out.evtValid, t.out.evtId, t.sc.phase))
      = some (true, 5, .eval2) := by decide
theorem test_sc_eval2 :
    after (exec .scEval2 (scAt .eval2 2 0 ⟨true, true⟩)) (fun t => (t.out.evtValid, t.out.evtId, t.sc.phase))
      = some (true, 6, .settle) := by decide

/-- The worked example of R97, and the next row. -/
theorem test_sc_settle :
    after (exec .scSettle { State.reset with sc := { Scanner.reset with phase := .settle, row := 4 } })
        (fun t => (t.sc.phase, t.sc.init)) = some (.direct, false) ∧
      after (exec .scSettle (scAt .settle 0 0 ⟨false, false⟩)) (fun t => (t.sc.phase, t.sc.row)) = some (.rowOn, 1) := by
  decide

/-- R98: with SCAN_IDLE_TICKS = 2, IDLE lasts two clocks. -/
theorem test_sc_idle :
    after (exec .scIdle (scAt .idle 4 1 ⟨false, false⟩)) (fun t => (t.sc.phase, t.sc.timer)) = some (.idle, 0) ∧
      after (exec .scIdle (scAt .idle 4 0 ⟨false, false⟩)) (fun t => t.sc.phase) = some .direct := by decide

/-- The worked example of R121: a strobe at position 5 is cut. -/
theorem test_reset_cuts_strobe :
    (mxAt digitsP1 0b0010 .dwell 5 1).out.en[5] = true ∧
      after (exec .reset (mxAt digitsP1 0b0010 .dwell 5 1)) (fun t => (t.out.en[5], t.out.seg, t.mx.phase))
        = some (false, 0b0000, .drain) := by decide

/-- An operation outside its selector is refused by name (log 3). -/
theorem test_not_selected : exec (.set 1 2) State.reset = .refused .notSelected := rfl

/-- V3 row 2 as a clock: the mailbox, the multiplexer and the scanner step together (R12). -/
theorem test_clock_steps_all_three :
    after (step (queue [sets 1 2] (mxAt zeros 0 .dwell 2 1))) (fun t => (t.slot, t.mx.timer, t.sc.phase))
      = some (⟨true, 1, 2⟩, 0, .rowOn) := by decide

/-- V3 row 10: a SET in a RESET clock is ignored. -/
theorem test_clock_reset_ignores_set :
    after (step (queue [⟨true, true, 9, 9, noKeys⟩] (fill true 3 4 State.reset))) State.slot
      = some ⟨false, 0, 0⟩ := by decide

/-- V1's show masks: 5 and 1000. -/
theorem test_shown_positions :
    (allPositions.filter fun p => DigitFile.shown ⟨⟨0, 0, 0, 5⟩, ⟨1, 0, 0, 0⟩⟩ p) = [2, 3, 4, 5, 6, 7] := by decide

/-- S8: with (3,1) pressed, column 1 is high under row 3 only. -/
theorem test_ideal_keypad :
    (queue [tickClock (.matrix false [(2, 0)])] (scAt .rowOn 2 0 ⟨false, false⟩)).input.col = ⟨true, false⟩ ∧
      (queue [tickClock (.matrix false [(2, 0)])] (scAt .rowOn 1 0 ⟨false, false⟩)).input.col = ⟨false, false⟩ := by
  decide

end Operations

section Witnesses

/-! Each theorem shows states and operands that meet the hypotheses of the statement it is named after, one per clause,
at the ends of its range. -/

/-- The last dwell clocks of a cycle, with two SETs queued. -/
def twoSets : State := queue [sets 1 2, sets 3 4, quiet false] (mxAt digitsP1 0b0100 .dwell 7 1)

/-- A pending value at a drain. -/
def pendingAtDrain : State := fill true 5 1234 (queue (List.replicate 25 (quiet false)) State.reset)

/-- Every dwell one clock long. -/
def shortDwell : Config := { Config.default with dwellUnits := 1 }

theorem test_witness_DecomposeAnswersSaturatedDigits :
    (0 : Value).toNat = 0 ∧ 9999 ≤ (9999 : Value).toNat ∧ 9999 ≤ (65535 : Value).toNat ∧ 0 < (1 : Value).toNat ∧
      (1 : Value).toNat < 9999 ∧ (9998 : Value).toNat < 9999 := by decide

theorem test_witness_EncodeAnswersTablePattern : 10 ≤ (10 : BitVec 4).toNat ∧ 10 ≤ (15 : BitVec 4).toNat := by decide

theorem test_witness_EncoderInputWordDecodes :
    (0x10 : BitVec 5).getLsbD 4 = true ∧ (0x1F : BitVec 5).getLsbD 4 = true ∧ (9 : BitVec 5).toNat < 10 ∧
      (10 ≤ (10 : BitVec 5).toNat ∧ (15 : BitVec 5).toNat < 16) := by decide

theorem test_witness_SetOverwritesSlot_SlotHoldChangesNothing :
    (mxAt zeros 0 .setup 2 0).mx.phase ≠ .drain ∧ (mxAt zeros 0 .dwell 2 0).mx.phase ≠ .drain := by decide

theorem test_witness_TryTakeEmptiesSlot_SetTakeAnswersOldKeepsNew_MxDrainAloneEmptiesSlot :
    (fill true 1 2 State.reset).mx.phase = .drain ∧ (fill false 0 0 State.reset).mx.phase = .drain := by decide

theorem test_witness_MailboxClockFollowsOneFunction :
    (twoSets.ops = [] ∧ twoSets.input.rst = false ∧ twoSets.input.setValid = true) ∧
      (pendingAtDrain.ops = [] ∧ pendingAtDrain.input.rst = false ∧ pendingAtDrain.input.setValid = false ∧
        pendingAtDrain.mx.phase = .drain) := by decide

/-- A run of two clocks with the SETs (1, 2) and (3, 4), ending in DRAIN; and one without a SET. -/
theorem test_witness_MailboxCoalescesToLastSet :
    (Clocks twoSets (walk 2 twoSets).1 (walk 2 twoSets).2 ∧
      (∀ u ∈ (walk 2 twoSets).1, u.mx.phase ≠ .drain ∧ u.input.rst = false) ∧
      (walk 2 twoSets).1 = [twoSets] ++ nextOf twoSets :: [] ∧ SetsIn (nextOf twoSets) ⟨3, 4⟩ ∧
      (walk 2 twoSets).2.mx.phase = .drain) ∧
    (Clocks (queue [quiet false] twoSets) [queue [quiet false] twoSets] (nextOf (queue [quiet false] twoSets)) ∧
      ∀ v, ¬SetsIn (queue [quiet false] twoSets) v) := by
  refine ⟨⟨clocks_walk 2 _ (by decide), by decide, rfl, ⟨by decide, by decide, by decide⟩, by decide⟩,
    .cons rfl rfl (.nil _), ?_⟩
  rintro v ⟨_, h, _⟩
  revert h
  decide

/-- A take after two SETs in a clock without a SET, and one in the clock of a third SET. -/
theorem test_witness_TakeSeesMostRecentEarlierSet :
    (twoSets.slot.pending = false ∧ Clocks twoSets (walk 2 twoSets).1 (walk 2 twoSets).2 ∧
      (walk 2 twoSets).2.ops = [] ∧ TakesIn (walk 2 twoSets).2) ∧
    let s : State := queue [sets 1 2, sets 3 4, sets 7 8] twoSets
    s.slot.pending = false ∧ Clocks s (walk 2 s).1 (walk 2 s).2 ∧ (walk 2 s).2.ops = [] ∧ TakesIn (walk 2 s).2 ∧
      SetsIn (walk 2 s).2 ⟨7, 8⟩ :=
  ⟨⟨by decide, clocks_walk 2 _ (by decide), by decide, by decide, by decide⟩,
    by decide, clocks_walk 2 _ (by decide), by decide, ⟨by decide, by decide⟩, by decide, by decide, by decide⟩

/-- A drained value, and a drain of nothing. -/
theorem test_witness_MxDrainLoadsFirstShownPosition :
    (pendingAtDrain.mx.phase = .drain ∧ pendingAtDrain.slot.pending = true ∧
      digitsP1 = ⟨decomposeValue pendingAtDrain.slot.left, decomposeValue pendingAtDrain.slot.right⟩ ∧
      digitsP1.shown 2 = true ∧ (∀ q, q < 2 → digitsP1.shown q = false)) ∧
    (State.reset.slot.pending = false ∧ State.reset.mx.digits.shown 2 = true ∧
      ∀ q, q < 2 → State.reset.mx.digits.shown q = false) ∧
    pendingAtDrain.ops = [] ∧ pendingAtDrain.input.rst = false := by decide

theorem test_witness_MxSetupCountsThenDwells :
    ((mxAt zeros 0 .setup 2 1).mx.phase = .setup ∧ 0 < (mxAt zeros 0 .setup 2 1).mx.timer) ∧
      (mxAt zeros 0 .setup 2 0).mx.phase = .setup ∧ (mxAt zeros 0 .setup 2 0).mx.timer = 0 := by decide

/-- Still counting; from position 3 to the next shown 4; from position 7 to the drain. -/
theorem test_witness_MxDwellCountsThenMovesOn :
    ((mxAt zeros 0 .dwell 2 1).mx.phase = .dwell ∧ 0 < (mxAt zeros 0 .dwell 2 1).mx.timer) ∧
    ((mxAt digitsP1 0b0101 .dwell 3 0).mx.timer = 0 ∧ digitsP1.shown 4 = true ∧
      ∀ r : Position, 3 < r → r < 4 → digitsP1.shown r = false) ∧
    ((mxAt digitsP1 0b0100 .dwell 7 0).mx.timer = 0 ∧ ∀ q : Position, 7 < q → digitsP1.shown q = false) := by decide

theorem test_witness_EnableLineHighOnlyAtDwellPosition :
    (mxAt zeros 0 .dwell 7 0).out.en[7] = true ∧ (mxAt zeros 0 .dwell 2 0).out.en[2] = true := by decide

/-- The invariant in a strobe. -/
theorem test_inv_in_dwell : Inv (mxAt digitsP1 0b0101 .dwell 3 1) where
  cfgWf := by decide
  posShown := by decide
  segHolds := by decide
  drainTimer := by decide
  setupTimer := by decide
  dwellTimer := by decide
  rowTimer := by decide
  settleTimer := by decide
  idleTimer := by decide
  stillTimer := by decide
  initSilent := by decide

theorem test_witness_SkippedPositionsStayDark :
    Inv (mxAt digitsP1 0b0101 .dwell 3 1) ∧ (mxAt digitsP1 0b0101 .dwell 3 1).mx.digits.shown 0 = false ∧
      (mxAt digitsP1 0b0101 .dwell 3 1).mx.phase ≠ .drain :=
  ⟨test_inv_in_dwell, by decide, by decide⟩

/-- A strobe ends into the next SETUP; the last one ends into DRAIN; the gap is one clock, two across the DRAIN. -/
theorem test_witness_EnablesBreakBeforeMake :
    ((queue [quiet false] (mxAt digitsP1 0b0101 .dwell 3 0)).ops = [] ∧
      after (step (queue [quiet false] (mxAt digitsP1 0b0101 .dwell 3 0))) (fun u => u.mx.phase) = some .setup ∧
      0 < Config.default.setupTicks) ∧
    (after (step (queue [quiet false] (mxAt digitsP1 0b0100 .dwell 7 0))) (fun u => u.mx.phase) = some .drain ∧
      1 < Config.default.setupTicks + 1) := by decide

theorem test_witness_PatternStableWhileEnabled :
    Inv (mxAt digitsP1 0b0101 .dwell 3 1) ∧ (mxAt digitsP1 0b0101 .dwell 3 1).out.en[3] = true ∧
      after (step (mxAt digitsP1 0b0101 .dwell 3 1 |> queue [quiet false])) (fun t => t.out.en[3]) = some true :=
  ⟨test_inv_in_dwell, by decide, by decide⟩

/-- The first cycle after reset: 13 clocks (V4). -/
theorem test_witness_RefreshCycleLength :
    (queue (List.replicate 13 (quiet false)) State.reset).cfg.wf = true ∧
    1 + shownCount (nextOf (queue (List.replicate 13 (quiet false)) State.reset)).mx.digits *
      (Config.default.setupTicks + Config.default.dwellTicks) = 13 ∧
    ∀ k v, k < 13 → Host.Core.run core k (queue (List.replicate 13 (quiet false)) State.reset) = .next v →
      v.input.rst = false :=
  ⟨by decide, by decide, run_quiet 13 _ (by decide) (by decide)⟩

/-- Two clocks from reset enable 2 is high. -/
theorem test_witness_NeverWrittenMailboxStrobesZeros :
    (queue [quiet false, quiet false] State.reset).mx = Mux.reset ∧
    (queue [quiet false, quiet false] State.reset).slot.pending = false ∧
    Clocks (queue [quiet false, quiet false] State.reset) (walk 2 (queue [quiet false, quiet false] State.reset)).1
      (walk 2 (queue [quiet false, quiet false] State.reset)).2 ∧
    (∀ u ∈ (walk 2 (queue [quiet false, quiet false] State.reset)).1, u.input.setValid = false) ∧
    (walk 2 (queue [quiet false, quiet false] State.reset)).2.out.en[2] = true :=
  ⟨by decide, by decide, clocks_walk 2 _ (by decide), by decide, by decide⟩

/-- (5, 1234) drained with one-clock dwells: enable 3 is high three clocks later, enable 4 five clocks later. -/
theorem test_witness_DrainedValueIsDisplayedDecimally :
    let s : State := { pendingAtDrain with cfg := shortDwell }
    (s.mx.phase = .drain ∧ s.input.rst = false ∧ s.slot.pending = true ∧ step s = .next (nextOf s)) ∧
    (Clocks (nextOf s) (walk 3 (nextOf s)).1 (walk 3 (nextOf s)).2 ∧
      (walk 3 (nextOf s)).2.out.en[3] = true) ∧
    (Clocks (nextOf s) (walk 5 (nextOf s)).1 (walk 5 (nextOf s)).2 ∧
      (∀ w ∈ (walk 5 (nextOf s)).1, w.mx.phase ≠ .drain ∧ w.input.rst = false) ∧
      (walk 5 (nextOf s)).2.out.en[4] = true) :=
  ⟨⟨by decide, by decide, by decide, rfl⟩, ⟨clocks_walk 3 _ (by decide), by decide⟩, clocks_walk 5 _ (by decide),
    by decide, by decide⟩

theorem test_witness_MidCycleSetKeepsDigits :
    twoSets.ops = [] ∧ twoSets.mx.phase ≠ .drain ∧ twoSets.input.rst = false ∧ twoSets.input.setValid = true := by decide

theorem test_witness_EdgeEmitsExactlyOnChange :
    State.reset.sc.init = true ∧
      ((scAt .eval1 2 0 ⟨true, false⟩).sc.init = false ∧ true ≠ (scAt .eval1 2 0 ⟨true, false⟩).sc.btn[10]) ∧
      false = (scAt .eval1 2 0 ⟨true, false⟩).sc.btn[10] := by decide

theorem test_witness_ScDirectSamplesPenButton : (scAt .direct 4 0 ⟨false, false⟩).sc.phase = .direct := rfl

theorem test_witness_ScRowOnLatchesBothColumns :
    ((scAt .rowOn 0 1 ⟨false, false⟩).sc.phase = .rowOn ∧ 0 < (scAt .rowOn 0 1 ⟨false, false⟩).sc.timer) ∧
      (scAt .rowOn 0 0 ⟨false, false⟩).sc.timer = 0 := by decide

/-- The first and the last row. -/
theorem test_witness_ScEval1ComparesFirstColumn_ScEval2ComparesSecondColumn :
    ((scAt .eval1 0 0 ⟨true, false⟩).sc.phase = .eval1 ∧ (1 : ButtonId).val = 2 * (Row.number 0 - 1) + 1 ∧
      (9 : ButtonId).val = 2 * (Row.number 4 - 1) + 1) ∧
    ((scAt .eval2 0 0 ⟨true, false⟩).sc.phase = .eval2 ∧ (2 : ButtonId).val = 2 * (Row.number 0 - 1) + 2 ∧
      (10 : ButtonId).val = 2 * (Row.number 4 - 1) + 2) := by decide

theorem test_witness_ScSettleAdvancesRowOrEndsCycle :
    ((scAt .settle 0 1 ⟨false, false⟩).sc.phase = .settle ∧ 0 < (scAt .settle 0 1 ⟨false, false⟩).sc.timer) ∧
    ((scAt .settle 3 0 ⟨false, false⟩).sc.timer = 0 ∧ Row.number 3 < 5 ∧ Row.number 4 = Row.number 3 + 1 ∧
      Row.number 0 < 5 ∧ Row.number 1 = Row.number 0 + 1) ∧
    (Row.number 4 = 5 ∧ 0 < { Config.default with scanIdleTicks := 1 }.scanIdleTicks ∧
      Config.default.scanIdleTicks = 0) := by decide

theorem test_witness_ScIdleCountsThenRestarts :
    ((scAt .idle 4 1 ⟨false, false⟩).sc.phase = .idle ∧ 0 < (scAt .idle 4 1 ⟨false, false⟩).sc.timer) ∧
      (scAt .idle 4 0 ⟨false, false⟩).sc.timer = 0 := by decide

theorem test_witness_RowLineHighOnlyInRowOn : (scAt .rowOn 4 0 ⟨false, false⟩).out.row[4] = true := by decide

/-- The gap after row 4 is 3 clocks and the gap after row 5 is 4 with the defaults. -/
theorem test_witness_RowsStayLowBetweenStrobes :
    let s : State := queue (List.replicate 5 (quiet false)) (scAt .rowOn 3 0 ⟨false, false⟩)
    let s5 : State := queue (List.replicate 5 (quiet false)) (scAt .rowOn 4 0 ⟨false, false⟩)
    (s.ops = [] ∧ s.cfg.wf = true ∧ s.sc.phase = .rowOn ∧ s.input.rst = false ∧ (nextOf s).sc.phase ≠ .rowOn ∧
      Row.number s.sc.row < 5 ∧ 2 + s.cfg.settleTicks = 3) ∧
    (∀ k v, k < 3 → Host.Core.run core k (nextOf s) = .next v → v.input.rst = false) ∧
    (¬Row.number s5.sc.row < 5 ∧ (nextOf s5).sc.phase ≠ .rowOn ∧
      3 + s5.cfg.settleTicks + s5.cfg.scanIdleTicks = 4) ∧
    (∀ k v, k < 4 → Host.Core.run core k (nextOf s5) = .next v → v.input.rst = false) :=
  ⟨by decide, run_quiet 3 _ (by decide) (by decide), by decide, run_quiet 4 _ (by decide) (by decide)⟩

/-- The first scan cycle after reset: 21 clocks. -/
theorem test_witness_ScanCycleLength :
    let s : State := queue (List.replicate 21 (quiet false)) State.reset
    s.ops = [] ∧ s.cfg.wf = true ∧ s.sc.phase = .direct ∧
      1 + 5 * (s.cfg.rowSetupTicks + 2 + s.cfg.settleTicks) + s.cfg.scanIdleTicks = 21 ∧
      ∀ k v, k < 21 → Host.Core.run core k s = .next v → v.input.rst = false :=
  ⟨by decide, by decide, by decide, by decide, run_quiet 21 _ (by decide) (by decide)⟩

/-- A clock that emits: (3,1) newly pressed. -/
theorem test_witness_SamplesDriveButtonsAndEvents :
    let s : State := queue [quiet false] (scAt .eval1 2 0 ⟨true, false⟩)
    s.ops = [] ∧ s.input.rst = false ∧ s.sc.init = false ∧ sampleOf s 5 = some true ∧ true ≠ s.sc.btn[5] := by decide

/-- The direct button is held through the first clocks after reset. -/
theorem test_witness_FirstCycleInitialisesSilently :
    let s : State := queue [quiet true, quiet true] State.reset
    Clocks s (walk 2 s).1 (walk 2 s).2 ∧ (∀ u ∈ (walk 2 s).1, u.input.rst = false) ∧ s.sc.init = true ∧
      (∀ u ∈ (walk 2 s).1, u.sc.init = true) ∧ (walk 2 s).1 = [] ++ s :: [nextOf s] ∧ sampleOf s 0 = some true ∧
      ∀ w ∈ [nextOf s], sampleOf w 0 = none :=
  ⟨clocks_walk 2 _ (by decide), by decide, by decide, by decide, rfl, by decide, by decide⟩

theorem test_witness_UnchangedSamplesEmitNothing :
    let s : State := queue [quiet false, quiet false] (scAt .direct 4 0 ⟨false, false⟩)
    Clocks s (walk 2 s).1 (walk 2 s).2 ∧ (∀ u ∈ (walk 2 s).1, u.input.rst = false) ∧
      ∀ u ∈ (walk 2 s).1, ∀ (b : ButtonId) (v : Bool), sampleOf u b = some v → v = s.sc.btn[b] :=
  ⟨clocks_walk 2 _ (by decide), by decide, by decide⟩

theorem test_witness_ButtonIdsNumberTheMatrix : matrixButton 4 1 = matrixButton 4 1 ∧ (matrixButton 4 1).val = 10 := by
  decide

theorem test_witness_IdealKeypadFollowsRowLines :
    let s : State := queue [⟨false, false, 0, 0, .matrix true [(2, 0)]⟩] (scAt .rowOn 2 0 ⟨false, false⟩)
    s.stim = ⟨false, false, 0, 0, .matrix true [(2, 0)]⟩ :: [] ∧ s.out.row[2] = true := by decide

theorem test_witness_SinkTextNamesButton : (10 : ButtonId) ≠ 0 := by decide

theorem test_witness_ResetClockIgnoresSet :
    let s : State := queue [⟨true, true, 9, 9, noKeys⟩] (mxAt digitsP1 0b0010 .dwell 5 1)
    s.ops = [] ∧ s.input.rst = true ∧ s.input.setValid = true := by decide

theorem test_witness_FirstCycleAfterResetShowsZeros :
    let s : State := queue [sets 5 1234] (fill true 1 2 (mxAt digitsP1 0b0010 .dwell 5 1))
    exec .reset s = .next s.resetRegisters ∧ s.resetRegisters.ops = [] ∧ s.resetRegisters.input.rst = false ∧
      s.resetRegisters.input.setValid = true :=
  ⟨rfl, by decide, by decide, by decide⟩

/-- The reset clock; then each of the four mailbox, three multiplexer and six scanner operations selected. -/
theorem test_witness_ClockIsParallelComposition :
    let at' (m : MxPhase) (c : ScPhase) (x : Stimulus) : State :=
      queue [x] { State.reset with mx := { Mux.reset with phase := m }, sc := { Scanner.reset with phase := c } }
    (at' .drain .direct (resetClock noKeys)).input.rst = true ∧
    (∀ c ∈ [ScPhase.direct, .rowOn, .eval1, .eval2, .settle, .idle], ∀ m ∈ [MxPhase.drain, .setup, .dwell],
      ∀ x ∈ [sets 5 1234, quiet true],
        (at' m c x).ops = [] ∧ (at' m c x).input.rst = false ∧ (at' m c x).mx.phase = m ∧ (at' m c x).sc.phase = c) ∧
    (at' .drain .direct (sets 5 1234)).input.setValid = true ∧
    (at' .drain .direct (quiet true)).input.setValid = false := by decide

theorem test_witness_OperationsRunExactlyWhereSelected :
    (Instr.set 1 2).wf = true ∧ Selected (.set 1 2) (mxAt zeros 0 .setup 2 0) ∧ ¬Selected (.set 1 2) State.reset :=
  ⟨rfl, (by decide : (mxAt zeros 0 .setup 2 0).mx.phase ≠ .drain), fun h => h rfl⟩

theorem test_witness_StepRunsRequestedOperation :
    ({ State.reset with ops := [0x71] } : State).ops = 0x71 :: [] ∧ decode 0x71 = .ok .reset ∧
      decode 0x00 = .error .unknownOperation := ⟨rfl, by decide, by decide⟩

theorem test_witness_ClocksNeverStop : State.reset.ops = [] := rfl

theorem test_witness_StepKeepsInvariant_ParametersNeverChange :
    Inv (mxAt digitsP1 0b0101 .dwell 3 1) ∧
      step (mxAt digitsP1 0b0101 .dwell 3 1) = .next (nextOf (mxAt digitsP1 0b0101 .dwell 3 1)) :=
  ⟨test_inv_in_dwell, step_nextOf rfl⟩

/-- Two states that differ on the keypad side, and two that differ on the display side. -/
theorem test_witness_DisplayAndKeypadShareNothing :
    let s : State := queue [quiet false] State.reset
    let k : State := queue [quiet true] (scAt .eval1 2 0 ⟨true, false⟩)
    let d : State := queue [⟨false, true, 5, 1234, .levels false ⟨false, false⟩⟩] (mxAt digitsP1 0b0101 .dwell 3 1)
    (s.cfg = k.cfg ∧ s.input.rst = k.input.rst ∧ s.mx = k.mx ∧ s.slot = k.slot ∧
      s.input.setValid = k.input.setValid ∧ s.input.setLeft = k.input.setLeft ∧
      s.input.setRight = k.input.setRight ∧ s.sc ≠ k.sc) ∧
    (s.input.rst = d.input.rst ∧ s.sc = d.sc ∧ s.input.direct = d.input.direct ∧ s.input.col = d.input.col ∧
      s.mx ≠ d.mx) := by decide

theorem test_witness_DecodeInvertsEncode_EncodeInvertsDecode :
    (Instr.encode 9).wf = true ∧ (Instr.edge 10 true).wf = true ∧ decode 0x0911 = .ok (.encode 9) := by decide

theorem test_witness_TableIdsDecodeToOperations :
    (opIdOf 0x00).toNat = 0 ∧ (opIdOf 0xFFFFFFFFFF).toNat = 255 ∧
      (opIdOf 0x00).toNat ∉ [0x01, 0x11, 0x12, 0x21, 0x22, 0x23, 0x24, 0x31, 0x32, 0x33, 0x41, 0x42, 0x43, 0x44, 0x45,
        0x46, 0x47, 0x71] := by decide

end Witnesses

end Sys2Proof.Tests
end

section
/-! SUPPORT. R12: the selectors of R58 pick one mailbox operation, one multiplexer step and one scanner step, and a clock
with `rst = 0` is their parallel composition. -/

namespace Sys2Proof.Machine

open Sys2Proof

/-- The selectors of the mailbox operations (R58) hold for exactly one operation, the one the dispatcher picks. -/
theorem eq_selectMailbox_iff (i : Instr) (s : State) (x : Input) :
    i = selectMailbox s x ↔
      i = .set x.setLeft x.setRight ∧ x.setValid = true ∧ s.mx.phase ≠ .drain ∨
      i = .tryTake ∧ x.setValid = false ∧ s.mx.phase = .drain ∨
      i = .setTake x.setLeft x.setRight ∧ x.setValid = true ∧ s.mx.phase = .drain ∨
      i = .slotHold ∧ x.setValid = false ∧ s.mx.phase ≠ .drain := by
  by_cases hphase : s.mx.phase = .drain
  · cases hset : x.setValid <;> simp [selectMailbox, hphase, hset]
  · cases hset : x.setValid <;> simp [selectMailbox, hphase, hset]

/-- The selectors of the multiplexer steps (R58) hold for exactly one step, the one the dispatcher picks. -/
theorem eq_selectMux_iff (i : Instr) (s : State) :
    i = selectMux s ↔
      i = .mxDrain ∧ s.mx.phase = .drain ∨ i = .mxSetup ∧ s.mx.phase = .setup ∨
      i = .mxDwell ∧ s.mx.phase = .dwell := by
  cases hphase : s.mx.phase <;> simp [selectMux, hphase]

/-- The selectors of the scanner steps (R58) hold for exactly one step, the one the dispatcher picks. -/
theorem eq_selectScanner_iff (i : Instr) (s : State) (x : Input) :
    i = selectScanner s x ↔
      i = .scDirect x.direct ∧ s.sc.phase = .direct ∨
      i = .scRowOn x.col.c1 x.col.c2 ∧ s.sc.phase = .rowOn ∨
      i = .scEval1 ∧ s.sc.phase = .eval1 ∨ i = .scEval2 ∧ s.sc.phase = .eval2 ∨
      i = .scSettle ∧ s.sc.phase = .settle ∨ i = .scIdle ∧ s.sc.phase = .idle := by
  cases hphase : s.sc.phase <;> simp [selectScanner, hphase]

/-- A composition goes on exactly when its three operations do, each from the same state; its next state takes the
mailbox from the first, the multiplexer from the second, the scanner from the third. -/
theorem compose_eq_next {s t : State} {mailbox mux scanner : Instr} :
    compose s mailbox mux scanner = .next t ↔
      ∃ a b c, exec mailbox s = .next a ∧ exec mux s = .next b ∧ exec scanner s = .next c ∧
        { s with slot := a.slot, result := a.result, mx := b.mx, sc := c.sc } = t := by
  simp [compose, andThen_eq_next]

/-- Without a request and without RESET the three selected operations all go on, and the step is their composition,
counted as a clock. -/
theorem step_eq_compose_advance {s : State} (hquiet : s.ops = []) (hrst : s.input.rst = false) :
    ∃ t, compose s (selectMailbox s s.input) (selectMux s) (selectScanner s s.input) = .next t ∧
      step s = .next t.advance := by
  have hgoes := step_running hquiet hrst
  have hstep : step s = andThen (compose s (selectMailbox s s.input) (selectMux s) (selectScanner s s.input))
      fun t => .next t.advance := by
    simp [step_clock hquiet, clockStep, hrst]
  obtain ⟨t, hcompose, -⟩ := andThen_eq_next.mp (hstep.symm.trans hgoes)
  exact ⟨t, hcompose, by rw [hstep, hcompose, andThen_next]⟩

/-- Settles O50: an operation whose selector holds is the one the clock picks, and the clock composes the three picked
operations. -/
theorem clockIsParallelComposition : Obligations.ClockIsParallelComposition := by
  unfold Obligations.ClockIsParallelComposition
  intro s hquiet
  constructor
  · intro hrst
    exact ⟨s.resetRegisters, rfl, step_reset hquiet hrst⟩
  · intro mailbox mux scanner hrst hmailbox hmux hscanner
    rw [← eq_selectMailbox_iff] at hmailbox
    rw [← eq_selectMux_iff] at hmux
    rw [← eq_selectScanner_iff] at hscanner
    subst hmailbox hmux hscanner
    obtain ⟨t, hcompose, hstep⟩ := step_eq_compose_advance hquiet hrst
    obtain ⟨a, b, c, ha, hb, hc, rfl⟩ := compose_eq_next.mp hcompose
    exact ⟨a, b, c, ha, hb, hc, hstep⟩

end Sys2Proof.Machine
end

section
/-! SUPPORT. The output ports as functions of the state (R29 to R32), and the registers and outputs of the reset state
(R34). -/

namespace Sys2Proof.Machine

open Sys2Proof

section outputs
variable (s : State)

@[simp] theorem out_seg : s.out.seg = s.mx.seg := rfl
@[simp] theorem out_evtValid : s.out.evtValid = s.sc.evtV := rfl
@[simp] theorem out_evtId : s.out.evtId = s.sc.evtB := rfl
@[simp] theorem out_evtPressed : s.out.evtPressed = s.sc.evtP := rfl

end outputs

section lines
variable {s : State}

/-- R29: when an enable line is high. -/
theorem out_en_eq_true_iff {k : EnableLine} :
    s.out.en[k] = true ↔ s.mx.phase = .dwell ∧ k.val = s.mx.pos.val := by
  simp [State.out, State.en]

/-- R31: when a row line is high. -/
theorem out_row_eq_true_iff {r : Row} : s.out.row[r] = true ↔ s.sc.phase = .rowOn ∧ r = s.sc.row := by
  simp [State.out, State.rowOut]

/-- At most one enable line is high: each high line has the number of the position. -/
theorem out_en_unique {j k : EnableLine} (hj : s.out.en[j] = true) (hk : s.out.en[k] = true) : j = k := by
  obtain ⟨-, hjpos⟩ := out_en_eq_true_iff.mp hj
  obtain ⟨-, hkpos⟩ := out_en_eq_true_iff.mp hk
  exact Fin.ext (hjpos.trans hkpos.symm)

/-- At most one row line is high: each high line is the scanned row. -/
theorem out_row_unique {q r : Row} (hq : s.out.row[q] = true) (hr : s.out.row[r] = true) : q = r := by
  obtain ⟨-, hqrow⟩ := out_row_eq_true_iff.mp hq
  obtain ⟨-, hrrow⟩ := out_row_eq_true_iff.mp hr
  exact hqrow.trans hrrow.symm

/-- The lines above the eight positions are never high. -/
theorem out_en_eq_false_of_le {k : EnableLine} (hk : 8 ≤ k.val) : s.out.en[k] = false := by
  refine Bool.eq_false_iff.mpr fun hhigh => ?_
  obtain ⟨-, hpos⟩ := out_en_eq_true_iff.mp hhigh
  omega

theorem out_en_eq_false_of_phase_ne (hphase : s.mx.phase ≠ .dwell) (k : EnableLine) : s.out.en[k] = false :=
  Bool.eq_false_iff.mpr fun hhigh => hphase (out_en_eq_true_iff.mp hhigh).1

theorem out_row_eq_false_of_phase_ne (hphase : s.sc.phase ≠ .rowOn) (r : Row) : s.out.row[r] = false :=
  Bool.eq_false_iff.mpr fun hhigh => hphase (out_row_eq_true_iff.mp hhigh).1

end lines

theorem scannerReset_btn (b : ButtonId) : Scanner.reset.btn[b] = false := by
  simp [Scanner.reset]

/-- Settles O20: a position is below 8, so it selects one of the first eight lines and no other. -/
theorem enableLineHighOnlyAtDwellPosition : Obligations.EnableLineHighOnlyAtDwellPosition := by
  unfold Obligations.EnableLineHighOnlyAtDwellPosition
  intro s
  exact ⟨fun _ => out_en_eq_true_iff, fun _ _ => out_en_unique, out_en_eq_false_of_le (k := 8) (by decide),
    out_en_eq_false_of_le (k := 9) (by decide)⟩

/-- Settles O35: a high row line is the one of the scanned row. -/
theorem rowLineHighOnlyInRowOn : Obligations.RowLineHighOnlyInRowOn := by
  unfold Obligations.RowLineHighOnlyInRowOn
  intro s
  exact ⟨fun _ => out_row_eq_true_iff, fun _ _ => out_row_unique⟩

/-- Settles O43, by the port equations. -/
theorem segAndEventPortsShowRegisters : Obligations.SegAndEventPortsShowRegisters := by
  unfold Obligations.SegAndEventPortsShowRegisters
  intro s
  exact ⟨out_seg s, out_evtValid s, out_evtId s, out_evtPressed s⟩

/-- Settles O48: the registers by definition, the enable and row lines because reset is in DRAIN and DIRECT. -/
theorem resetStateHoldsResetValues : Obligations.ResetStateHoldsResetValues := by
  unfold Obligations.ResetStateHoldsResetValues
  have hen : ∀ k : EnableLine, State.reset.out.en[k] = false :=
    out_en_eq_false_of_phase_ne (by decide)
  have hrow : ∀ r : Row, State.reset.out.row[r] = false :=
    out_row_eq_false_of_phase_ne (by decide)
  exact ⟨rfl, rfl, scannerReset_btn, rfl, rfl, rfl, rfl, rfl, rfl, rfl, rfl, hen, hrow, rfl, rfl⟩

end Sys2Proof.Machine
end

section
/-! SUPPORT. The button ids of the matrix (R54) and the informative text of an event word (R56). -/

namespace Sys2Proof.Machine

open Sys2Proof

section matrix
variable (r r' : Row) (c c' : Column)

/-- R54: the id of a matrix button from the numbers of its row and column. -/
theorem matrixButton_val_eq_number :
    (matrixButton r c).val = 2 * (Row.number r - 1) + Column.number c := by
  simp [matrixButton, Row.number, Column.number]

/-- A matrix button's id is not 0, the id of the direct button. -/
theorem one_le_matrixButton_val : 1 ≤ (matrixButton r c).val := by
  simp only [matrixButton]
  omega

variable {r r' c c'}

/-- A matrix button's id less 1 has the row as its quotient by 2 and the column as its remainder. -/
theorem matrixButton_inj : matrixButton r c = matrixButton r' c' ↔ r = r' ∧ c = c' := by
  simp only [matrixButton, Fin.ext_iff]
  omega

end matrix

/-- R56: the text of an event of the direct button. -/
theorem sinkText_direct (pressed : Bool) :
    sinkText directButton pressed = if pressed then "Pen button is pressed" else "Pen button is not pressed" :=
  if_pos rfl

/-- R56: the text of an event of a matrix button. -/
theorem sinkText_of_ne_direct {k : ButtonId} (hk : k ≠ directButton) (pressed : Bool) :
    sinkText k pressed =
      "Button " ++ Config.buttonName k.val ++ (if pressed then " is pressed" else " is released") :=
  if_neg hk

/-- Settles O41: the range is that of the id type above the direct button's 0. -/
theorem buttonIdsNumberTheMatrix : Obligations.ButtonIdsNumberTheMatrix := by
  unfold Obligations.ButtonIdsNumberTheMatrix
  refine ⟨rfl, fun r c => ⟨matrixButton_val_eq_number r c, one_le_matrixButton_val r c, ?_⟩,
    fun _ _ _ _ => matrixButton_inj.mp⟩
  exact Nat.le_of_lt_succ (matrixButton r c).isLt

/-- Settles O44: id 0 is the direct button, every other id a matrix button's. -/
theorem sinkTextNamesButton : Obligations.SinkTextNamesButton := by
  unfold Obligations.SinkTextNamesButton
  exact ⟨sinkText_direct true, sinkText_direct false,
    fun _ hk => ⟨sinkText_of_ne_direct hk true, sinkText_of_ne_direct hk false⟩⟩

end Sys2Proof.Machine
end

section
/-! SUPPORT. The decimal digits of a value, saturated from 9999 on (R64). -/

namespace Sys2Proof.Machine

open Sys2Proof

/-- The digit of a number is its last decimal digit. -/
@[simp] theorem digitOf_val (n : Nat) : (digitOf n).val = n % 10 := rfl

/-- R64: DECOMPOSE answers its digits from every state. -/
theorem exec_decompose (v : Value) (s : State) :
    exec (.decompose v) s = .next { s with result := .digits (decomposeValue v) } := rfl

section digits
variable {v : Value}

theorem decomposeValue_of_eq_zero (hzero : v.toNat = 0) : decomposeValue v = ⟨0, 0, 0, 0⟩ := if_pos hzero

/-- Saturation: every value from 9999 on has the digits of 9999. -/
theorem decomposeValue_of_le (hlarge : 9999 ≤ v.toNat) : decomposeValue v = ⟨9, 9, 9, 9⟩ := by
  have hpos : v.toNat ≠ 0 := by omega
  rw [decomposeValue, if_neg hpos, if_pos hlarge]

/-- The positional branch: a value strictly between 0 and 9999 is written in decimal. -/
theorem decomposeValue_of_lt (hpos : 0 < v.toNat) (hsmall : v.toNat < 9999) :
    decomposeValue v = ⟨digitOf (v.toNat / 1000), digitOf (v.toNat / 100 % 10), digitOf (v.toNat / 10 % 10),
      digitOf (v.toNat % 10)⟩ := by
  rw [decomposeValue, if_neg hpos.ne', if_neg hsmall.not_ge]

/-- In the positional branch no digit is cut: the thousands too are below 10. -/
theorem decomposeValue_val_of_lt (hpos : 0 < v.toNat) (hsmall : v.toNat < 9999) :
    (decomposeValue v).thousands.val = v.toNat / 1000 ∧ (decomposeValue v).hundreds.val = v.toNat / 100 % 10 ∧
      (decomposeValue v).tens.val = v.toNat / 10 % 10 ∧ (decomposeValue v).ones.val = v.toNat % 10 := by
  have hthousands : v.toNat / 1000 < 10 := by omega
  simp [decomposeValue_of_lt hpos hsmall, Nat.mod_eq_of_lt hthousands]

end digits

/-- Settles O1: one lemma for each branch of the decomposition. -/
theorem decomposeAnswersSaturatedDigits : Obligations.DecomposeAnswersSaturatedDigits := by
  unfold Obligations.DecomposeAnswersSaturatedDigits
  intro v s
  exact ⟨decomposeValue v, exec_decompose v s, rfl, decomposeValue_of_eq_zero, decomposeValue_of_le,
    decomposeValue_val_of_lt⟩

end Sys2Proof.Machine
end

section
/-! SUPPORT. ENCODE on the two kinds of 4-bit code, the digits and the codes 10..15 (R67), and ENCODE_BLANK (R68). -/

namespace Sys2Proof.Machine

open Sys2Proof

/-- R49: the number of a digit is its code. -/
theorem digitOfCode_ofNat_val (d : Digit) : digitOfCode (BitVec.ofNat 4 d.val) = some d := by
  have hcode : (BitVec.ofNat 4 d.val).toNat = d.val := Nat.mod_eq_of_lt (by omega)
  simp [digitOfCode, hcode]

/-- R49: the codes 10..15 stand for no digit. -/
theorem digitOfCode_of_le {code : BitVec 4} (hlarge : 10 ≤ code.toNat) : digitOfCode code = none :=
  dif_neg hlarge.not_gt

/-- ENCODE in terms of the code's digit. -/
theorem exec_encode_of_some {code : BitVec 4} {d : Digit} (hdigit : digitOfCode code = some d) (s : State) :
    exec (.encode code) s = .next { s with result := .pattern (encodeDigit d) } := by
  simp only [exec, execEncode, hdigit]

/-- ENCODE refuses a code without a digit. -/
theorem exec_encode_of_none {code : BitVec 4} (hnone : digitOfCode code = none) (s : State) :
    exec (.encode code) s = .refused .reservedDigitCode := by
  simp only [exec, execEncode, hnone]

/-- R67: ENCODE answers the table's pattern of every digit. -/
theorem exec_encode_digit (d : Digit) (s : State) :
    exec (.encode (BitVec.ofNat 4 d.val)) s = .next { s with result := .pattern (encodeDigit d) } :=
  exec_encode_of_some (digitOfCode_ofNat_val d) s

/-- R68: ENCODE_BLANK answers the blank pattern from every state. -/
theorem exec_encodeBlank (s : State) :
    exec .encodeBlank s = .next { s with result := .pattern encodeBlankPattern } := rfl

/-- Settles O3: each row of the table is ENCODE on that digit, and the codes above have no digit. -/
theorem encodeAnswersTablePattern : Obligations.EncodeAnswersTablePattern := by
  unfold Obligations.EncodeAnswersTablePattern
  intro s
  exact ⟨exec_encode_digit 0 s, exec_encode_digit 1 s, exec_encode_digit 2 s, exec_encode_digit 3 s,
    exec_encode_digit 4 s, exec_encode_digit 5 s, exec_encode_digit 6 s, exec_encode_digit 7 s,
    exec_encode_digit 8 s, exec_encode_digit 9 s, fun _ hlarge => exec_encode_of_none (digitOfCode_of_le hlarge) s⟩

/-- Settles O5: the blank pattern is the table's pattern of the digit 0. -/
theorem encodeBlankEqualsEncodeZero : Obligations.EncodeBlankEqualsEncodeZero := by
  unfold Obligations.EncodeBlankEqualsEncodeZero
  intro s
  have hpattern : encodeBlankPattern = encodeDigit 0 := rfl
  refine ⟨exec_encodeBlank s, ?_⟩
  calc exec .encodeBlank s
    _ = .next { s with result := .pattern encodeBlankPattern } := exec_encodeBlank s
    _ = .next { s with result := .pattern (encodeDigit 0) } := by rw [hpattern]
    _ = exec (.encode 0) s := (exec_encode_digit 0 s).symm

end Sys2Proof.Machine
end

section
/-! SUPPORT. The mailbox's next state and answer by each operation and by each clock (R72 to R75), and its reset (R79). -/

namespace Sys2Proof.Machine

open Sys2Proof

section next
variable (m : Mailbox) (take : Bool)

/-- R72 with a SET: the new value is pending, whether or not the old one is taken. -/
@[simp] theorem mailboxNext_some (v : DisplayValue) : m.next take (some v) = ⟨true, v.left, v.right⟩ := rfl

/-- R72 without a SET: the fields stay, and a take leaves nothing pending. -/
@[simp] theorem mailboxNext_none : m.next take none = ⟨m.pending && !take, m.left, m.right⟩ := rfl

/-- R72: the value a take returns. -/
theorem mailboxTaken_eq : m.taken = if m.pending then some ⟨m.left, m.right⟩ else none := rfl

end next

section operations
variable {s : State} (left right : Value)

/-- SET where it is selected, in terms of the mailbox function. -/
theorem exec_set_of_phase_ne (hphase : s.mx.phase ≠ .drain) :
    exec (.set left right) s = .next { s with slot := s.slot.next false (some ⟨left, right⟩) } :=
  whenSelected_of hphase _

/-- TRY_TAKE where it is selected, in terms of the mailbox function. -/
theorem exec_tryTake_of_phase_eq (hphase : s.mx.phase = .drain) :
    exec .tryTake s = .next { s with slot := s.slot.next true none, result := .taken s.slot.taken } :=
  whenSelected_of hphase _

/-- SET_TAKE where it is selected, in terms of the mailbox function. -/
theorem exec_setTake_of_phase_eq (hphase : s.mx.phase = .drain) :
    exec (.setTake left right) s = .next
      { s with slot := s.slot.next true (some ⟨left, right⟩), result := .taken s.slot.taken } :=
  whenSelected_of hphase _

end operations

section clocks
variable {s : State} {x : Input}

theorem mailboxAfter_of_set (hset : x.setValid = true) :
    mailboxAfter s x = ⟨true, x.setLeft, x.setRight⟩ := by
  simp [mailboxAfter, hset]

/-- Without a SET, what was pending stays so except in DRAIN, where the clock takes it. -/
theorem mailboxAfter_of_not_set (hset : x.setValid = false) :
    mailboxAfter s x = ⟨s.slot.pending && decide (s.mx.phase ≠ .drain), s.slot.left, s.slot.right⟩ := by
  simp [mailboxAfter, hset]

/-- R72: the pending bit after a clock, as one function of set and take. -/
theorem mailboxAfter_pending (s : State) (x : Input) :
    (mailboxAfter s x).pending = (x.setValid || (s.slot.pending && decide (s.mx.phase ≠ .drain))) := by
  cases hset : x.setValid with
  | false => simp [mailboxAfter_of_not_set hset]
  | true => simp [mailboxAfter_of_set hset]

theorem resultAfter_of_phase_eq (hphase : s.mx.phase = .drain) : resultAfter s = .taken s.slot.taken :=
  if_pos hphase

end clocks

/-- Settles O11: the clock's closed form takes mailbox and answer from `mailboxAfter` and `resultAfter`, each read by
whether there is a SET or a take. -/
theorem mailboxClockFollowsOneFunction : Obligations.MailboxClockFollowsOneFunction := by
  unfold Obligations.MailboxClockFollowsOneFunction
  intro s hquiet hrst
  refine ⟨_, step_running hquiet hrst, mailboxAfter_pending s s.input, fun hset => ?_, fun hset => ?_,
    resultAfter_of_phase_eq⟩
  · simp [mailboxAfter_of_set hset]
  · simp [mailboxAfter_of_not_set hset]

/-- Settles O7: SET is selected, and the mailbox function ignores the old content. -/
theorem setOverwritesSlot : Obligations.SetOverwritesSlot := by
  unfold Obligations.SetOverwritesSlot
  intro left right s hphase
  rw [exec_set_of_phase_ne left right hphase, mailboxNext_some]

/-- Settles O8: TRY_TAKE is selected; a take without a SET clears the pending bit alone. -/
theorem tryTakeEmptiesSlot : Obligations.TryTakeEmptiesSlot := by
  unfold Obligations.TryTakeEmptiesSlot
  intro s hphase
  rw [exec_tryTake_of_phase_eq hphase, mailboxNext_none, mailboxTaken_eq, Bool.not_true, Bool.and_false]

/-- Settles O9: SET_TAKE is selected; the answer is read before the write, and the SET wins over the take. -/
theorem setTakeAnswersOldKeepsNew : Obligations.SetTakeAnswersOldKeepsNew := by
  unfold Obligations.SetTakeAnswersOldKeepsNew
  intro left right s hphase
  rw [exec_setTake_of_phase_eq left right hphase, mailboxNext_some, mailboxTaken_eq]

/-- Settles O47: such a clock is RESET alone, which reads no SET; the lines are low because it ends in DRAIN and
DIRECT. -/
theorem resetClockIgnoresSet : Obligations.ResetClockIgnoresSet := by
  unfold Obligations.ResetClockIgnoresSet
  intro s hquiet hrst
  have hmx : s.resetRegisters.advance.mx.phase ≠ .dwell := by simp
  have hsc : s.resetRegisters.advance.sc.phase ≠ .rowOn := by simp
  exact ⟨s.resetRegisters.advance, step_reset hquiet hrst, rfl, out_en_eq_false_of_phase_ne hmx,
    out_row_eq_false_of_phase_ne hsc, rfl, rfl⟩

end Sys2Proof.Machine
end

section
/-! SUPPORT. The shown positions of a digit file (R80) and their order (R81), the cases of MX_DRAIN, MX_SETUP and
MX_DWELL (R83 to R85). -/

namespace Sys2Proof.Machine

open Sys2Proof

section shown
variable (b : Bank) (d : DigitFile)

theorem showsThousands_eq_true_iff : Bank.showsThousands b = true ↔ b.thousands ≠ 0 := decide_eq_true_iff

/-- R80: the hundreds digit is hidden only as a zero after a zero. -/
theorem showsHundreds_eq_true_iff : Bank.showsHundreds b = true ↔ b.thousands ≠ 0 ∨ b.hundreds ≠ 0 := by
  simp [Bank.showsHundreds, Bank.skipping, Bank.showsThousands]

/-- R80: the tens are never blanked. -/
@[simp] theorem shown_two : d.shown 2 = true := rfl

@[simp] theorem shown_six : d.shown 6 = true := rfl

end shown

section order
variable {d : DigitFile} {p q : Position}

/-- Searching the walk of a refresh cycle is searching the positions from 0 up, so a hit is the least one. -/
theorem allPositions_find? (f : Position → Bool) : allPositions.find? f = Fin.find? f :=
  Fin.find?_eq_find?_finRange.symm

/-- R81: the search for the first shown position never fails. -/
theorem find?_shown_eq_some_firstShown : Fin.find? d.shown = some d.firstShown := by
  have hsome : (Fin.find? d.shown).isSome := Fin.isSome_find?_of_eq_true (shown_two d)
  obtain ⟨p, hfound⟩ := Option.isSome_iff_exists.mp hsome
  rw [DigitFile.firstShown, allPositions_find?, hfound, Option.getD_some]

/-- R81: the first shown position is the least shown one. -/
theorem firstShown_eq_iff : d.firstShown = p ↔ d.shown p = true ∧ ∀ q, q < p → d.shown q = false := by
  rw [← Fin.find?_eq_some_iff, find?_shown_eq_some_firstShown, Option.some_inj]

/-- R81: the next shown position is the least shown one above. -/
theorem nextShown_eq_some_iff :
    d.nextShown p = some q ↔ p < q ∧ d.shown q = true ∧ ∀ r, p < r → r < q → d.shown r = false := by
  rw [DigitFile.nextShown, allPositions_find?, Fin.find?_eq_some_iff]
  simp [and_assoc, imp.swap]

/-- R81: there is no next shown position exactly where none is shown above. -/
theorem nextShown_eq_none_iff : d.nextShown p = none ↔ ∀ q, p < q → d.shown q = false := by
  rw [DigitFile.nextShown, allPositions_find?, Fin.find?_eq_none_iff]
  simp

/-- A shown position bounds the first shown one. -/
theorem firstShown_le_of_shown (hshown : d.shown p = true) : d.firstShown ≤ p := by
  obtain ⟨-, hleast⟩ := firstShown_eq_iff.mp (rfl : d.firstShown = d.firstShown)
  by_contra hlt
  simp [hleast p (not_le.mp hlt)] at hshown

/-- A shown position above bounds the next shown one, so that there is one. -/
theorem exists_nextShown_le_of_shown (hlt : p < q) (hshown : d.shown q = true) :
    ∃ r, d.nextShown p = some r ∧ p < r ∧ r ≤ q := by
  cases hnext : d.nextShown p with
  | none => simp [nextShown_eq_none_iff.mp hnext q hlt] at hshown
  | some r =>
    obtain ⟨habove, -, hleast⟩ := nextShown_eq_some_iff.mp hnext
    refine ⟨r, rfl, habove, ?_⟩
    by_contra hle
    simp [hleast q hlt (not_le.mp hle)] at hshown

end order

section multiplexer
variable {m : Mux} {cfg : Config} {taken : Option DisplayValue} {d : DigitFile} {p q : Position}

/-- R83: the digits after a drain, from the mailbox's fields. -/
theorem drained_taken (d : DigitFile) (slot : Mailbox) :
    d.drained slot.taken = if slot.pending then ⟨decomposeValue slot.left, decomposeValue slot.right⟩ else d := by
  cases hpending : slot.pending <;> simp [mailboxTaken_eq, DigitFile.drained, hpending]

/-- R83: MX_DRAIN strobes the least shown position of the digits after the drain. -/
theorem muxDrain_of_least_shown (hdigits : m.digits.drained taken = d) (hshown : d.shown p = true)
    (hleast : ∀ q, q < p → d.shown q = false) : m.drain cfg taken = Mux.strobe { m with digits := d } cfg p := by
  rw [Mux.drain, hdigits, firstShown_eq_iff.mpr ⟨hshown, hleast⟩]

theorem muxSetup_of_timer_pos (htimer : 0 < m.timer) : m.setup cfg = { m with timer := m.timer - 1 } :=
  if_pos htimer

theorem muxSetup_of_timer_eq_zero (htimer : m.timer = 0) :
    m.setup cfg = { m with phase := .dwell, timer := cfg.dwellTicks - 1 } :=
  if_neg htimer.not_gt

theorem muxDwell_of_timer_pos (htimer : 0 < m.timer) : m.dwell cfg = { m with timer := m.timer - 1 } :=
  if_pos htimer

theorem muxDwell_of_nextShown_eq_some (htimer : m.timer = 0) (hnext : m.digits.nextShown m.pos = some q) :
    m.dwell cfg = m.strobe cfg q := by
  rw [Mux.dwell, if_neg htimer.not_gt, hnext]

theorem muxDwell_of_nextShown_eq_none (htimer : m.timer = 0) (hnext : m.digits.nextShown m.pos = none) :
    m.dwell cfg = { m with phase := .drain } := by
  rw [Mux.dwell, if_neg htimer.not_gt, hnext]

end multiplexer

section steps
variable {s : State}

/-- MX_DRAIN where it is selected, in terms of the mailbox and multiplexer functions. -/
theorem exec_mxDrain_of_phase_eq (hphase : s.mx.phase = .drain) :
    exec .mxDrain s = .next { s with slot := s.slot.next true none, mx := s.mx.drain s.cfg s.slot.taken } :=
  whenSelected_of hphase _

/-- MX_SETUP where it is selected, in terms of the multiplexer function. -/
theorem exec_mxSetup_of_phase_eq (hphase : s.mx.phase = .setup) :
    exec .mxSetup s = .next { s with mx := s.mx.setup s.cfg } :=
  whenSelected_of hphase _

/-- MX_DWELL where it is selected, in terms of the multiplexer function. -/
theorem exec_mxDwell_of_phase_eq (hphase : s.mx.phase = .dwell) :
    exec .mxDwell s = .next { s with mx := s.mx.dwell s.cfg } :=
  whenSelected_of hphase _

/-- R83: a clock in DRAIN gives the multiplexer the registers of MX_DRAIN. -/
theorem muxAfter_of_drain (hphase : s.mx.phase = .drain) : muxAfter s = s.mx.drain s.cfg s.slot.taken := by
  rw [muxAfter, hphase]

/-- R72: a clock in DRAIN leaves pending exactly the value it sets. -/
theorem mailboxAfter_of_drain (hphase : s.mx.phase = .drain) (x : Input) :
    mailboxAfter s x = if x.setValid then ⟨true, x.setLeft, x.setRight⟩ else ⟨false, s.slot.left, s.slot.right⟩ := by
  cases hset : x.setValid with
  | false => simp [mailboxAfter_of_not_set hset, hphase]
  | true => simp [mailboxAfter_of_set hset]

end steps

/-- Settles O15: first and next are least shown positions; the tens positions 2 and 6, always shown, bound them. -/
theorem shownPositionsInIncreasingOrder : Obligations.ShownPositionsInIncreasingOrder := by
  unfold Obligations.ShownPositionsInIncreasingOrder
  intro d
  obtain ⟨hshown, hleast⟩ := firstShown_eq_iff.mp (rfl : d.firstShown = d.firstShown)
  refine ⟨⟨hshown, hleast, firstShown_le_of_shown (shown_two d)⟩, fun _ _ => nextShown_eq_some_iff,
    fun _ => nextShown_eq_none_iff, nextShown_eq_none_iff.mpr fun q habove => ?_, ?_⟩
  · exact absurd habove (Fin.le_last q).not_gt
  · obtain ⟨q, hnext, habove, hbelow⟩ := exists_nextShown_le_of_shown (p := 3) (by decide) (shown_six d)
    have hbetween : ∀ q : Position, 3 < q → q ≤ 6 → q = 4 ∨ q = 5 ∨ q = 6 := by decide
    simpa [hnext] using hbetween q habove hbelow

/-- Settles O16: the given position is the first shown one of the drained digits, alone and in the clock; the mailbox is
read off the clock's closed form. -/
theorem mxDrainLoadsFirstShownPosition : Obligations.MxDrainLoadsFirstShownPosition := by
  unfold Obligations.MxDrainLoadsFirstShownPosition
  intro s d p m hphase hd hshown hleast hm
  have hdigits : s.mx.digits.drained s.slot.taken = d := (drained_taken _ _).trans hd.symm
  have hmux : s.mx.drain s.cfg s.slot.taken = m := (muxDrain_of_least_shown hdigits hshown hleast).trans hm.symm
  constructor
  · exact ⟨s.slot.next true none, by rw [exec_mxDrain_of_phase_eq hphase, hmux]⟩
  · intro hquiet hrst
    exact ⟨_, step_running hquiet hrst, (muxAfter_of_drain hphase).trans hmux, mailboxAfter_of_drain hphase s.input⟩

/-- Settles O19: with the timer run down, the hypotheses of the two clauses say what the next shown position is. -/
theorem mxDwellCountsThenMovesOn : Obligations.MxDwellCountsThenMovesOn := by
  unfold Obligations.MxDwellCountsThenMovesOn
  intro s hphase
  rw [exec_mxDwell_of_phase_eq hphase]
  refine ⟨fun htimer => ?_, fun htimer q habove hshown hleast => ?_, fun htimer hnone => ?_⟩
  · rw [muxDwell_of_timer_pos htimer]
  · rw [muxDwell_of_nextShown_eq_some htimer (nextShown_eq_some_iff.mpr ⟨habove, hshown, hleast⟩), Mux.strobe]
  · rw [muxDwell_of_nextShown_eq_none htimer (nextShown_eq_none_iff.mpr hnone)]

/-- Settles O14: positions 0 and 1 read the left bank's digits, positions 4 and 5 the right bank's. -/
theorem shownPositionsBlankLeadingZeros : Obligations.ShownPositionsBlankLeadingZeros := by
  unfold Obligations.ShownPositionsBlankLeadingZeros
  intro d
  exact ⟨showsThousands_eq_true_iff d.left, showsHundreds_eq_true_iff d.left, shown_two d, rfl,
    showsThousands_eq_true_iff d.right, showsHundreds_eq_true_iff d.right, shown_six d, rfl⟩

/-- Settles O18, by the two cases of the timer. -/
theorem mxSetupCountsThenDwells : Obligations.MxSetupCountsThenDwells := by
  unfold Obligations.MxSetupCountsThenDwells
  intro s hphase
  rw [exec_mxSetup_of_phase_eq hphase]
  exact ⟨fun htimer => by rw [muxSetup_of_timer_pos htimer], fun htimer => by rw [muxSetup_of_timer_eq_zero htimer]⟩

end Sys2Proof.Machine
end

section
/-! SUPPORT. The cases of EDGE (R91), of the six scanner steps (R93 to R98), and their execution where they are
selected. -/

namespace Sys2Proof.Machine

open Sys2Proof

section edge
variable {sc : Scanner} {b : ButtonId} {v : Bool}

/-- R91: in the initialising cycle EDGE takes the sample silently. -/
theorem edge_of_init (hinit : sc.init = true) : sc.edge b v = (sc.setBtn b v).noEvent := if_pos hinit

/-- R91: after the initialising cycle EDGE takes a changed sample and emits it. -/
theorem edge_of_ne (hinit : sc.init = false) (hchange : v ≠ sc.btn[b]) : sc.edge b v = (sc.setBtn b v).emit b v := by
  rw [Scanner.edge, if_neg (Bool.eq_false_iff.mp hinit), if_pos hchange]

/-- R91: after the initialising cycle an unchanged sample has no effect but to end the last event. -/
theorem edge_of_eq (hinit : sc.init = false) (hsame : v = sc.btn[b]) : sc.edge b v = sc.noEvent := by
  rw [Scanner.edge, if_neg (Bool.eq_false_iff.mp hinit), if_neg (not_not.mpr hsame)]

end edge

/-- R54: the formula for a matrix button's id names that button alone. -/
theorem eq_matrixButton_of_val_eq {b : ButtonId} {r : Row} {c : Column}
    (hb : b.val = 2 * (Row.number r - 1) + Column.number c) : b = matrixButton r c :=
  Fin.ext (hb.trans (matrixButton_val_eq_number r c).symm)

section scanner
variable {sc : Scanner} {cfg : Config} {col : Columns}

theorem scannerRowOn_of_timer_pos (htimer : 0 < sc.timer) :
    sc.rowOn col = { sc.noEvent with timer := sc.timer - 1 } :=
  if_pos htimer

theorem scannerRowOn_of_timer_eq_zero (htimer : sc.timer = 0) :
    sc.rowOn col = { sc.noEvent with colSample := col, phase := .eval1 } :=
  if_neg htimer.not_gt

theorem scannerIdle_of_timer_pos (htimer : 0 < sc.timer) : sc.idle = { sc.noEvent with timer := sc.timer - 1 } :=
  if_pos htimer

theorem scannerIdle_of_timer_eq_zero (htimer : sc.timer = 0) : sc.idle = { sc.noEvent with phase := .direct } :=
  if_neg htimer.not_gt

theorem scannerSettle_of_timer_pos (htimer : 0 < sc.timer) :
    sc.settle cfg = { sc.noEvent with timer := sc.timer - 1 } :=
  if_pos htimer

/-- R97: a row that has a next one is followed by the strobe of that row. -/
theorem scannerSettle_of_next_row {r : Row} (htimer : sc.timer = 0) (hnext : Row.number r = Row.number sc.row + 1) :
    sc.settle cfg = sc.noEvent.strobe cfg r := by
  have hval : r.val = sc.row.val + 1 := Nat.succ.inj hnext
  have hrow : sc.row.val < 4 := by omega
  rw [Scanner.settle, if_neg htimer.not_gt, dif_pos hrow]
  exact congrArg (sc.noEvent.strobe cfg) (Fin.ext hval.symm)

/-- R97: row 5 ends the scan cycle. -/
theorem scannerSettle_of_last_row (htimer : sc.timer = 0) (hlast : Row.number sc.row = 5) :
    sc.settle cfg = sc.noEvent.endCycle cfg := by
  have hrow : sc.row.val = 4 := Nat.succ.inj hlast
  rw [Scanner.settle, if_neg htimer.not_gt, dif_neg hrow.not_lt]

theorem endCycle_of_idleTicks_pos (hidle : 0 < cfg.scanIdleTicks) :
    sc.endCycle cfg = { sc with init := false, timer := cfg.scanIdleTicks - 1, phase := .idle } :=
  if_pos hidle

theorem endCycle_of_idleTicks_eq_zero (hidle : cfg.scanIdleTicks = 0) :
    sc.endCycle cfg = { sc with init := false, phase := .direct } :=
  if_neg hidle.not_gt

end scanner

section steps
variable {s : State}

/-- EDGE, in terms of the scanner function: it has no selector. -/
theorem exec_edge (b : ButtonId) (v : Bool) (s : State) :
    exec (.edge b v) s = .next { s with sc := s.sc.edge b v } := rfl

/-- SC_DIRECT where it is selected, in terms of the scanner function. -/
theorem exec_scDirect_of_phase_eq (level : Bool) (hphase : s.sc.phase = .direct) :
    exec (.scDirect level) s = .next { s with sc := s.sc.direct s.cfg level } :=
  whenSelected_of hphase _

/-- SC_ROW_ON where it is selected, in terms of the scanner function. -/
theorem exec_scRowOn_of_phase_eq (col1 col2 : Bool) (hphase : s.sc.phase = .rowOn) :
    exec (.scRowOn col1 col2) s = .next { s with sc := s.sc.rowOn ⟨col1, col2⟩ } :=
  whenSelected_of hphase _

/-- SC_EVAL1 where it is selected, in terms of the scanner function. -/
theorem exec_scEval1_of_phase_eq (hphase : s.sc.phase = .eval1) :
    exec .scEval1 s = .next { s with sc := s.sc.eval1 } :=
  whenSelected_of hphase _

/-- SC_EVAL2 where it is selected, in terms of the scanner function. -/
theorem exec_scEval2_of_phase_eq (hphase : s.sc.phase = .eval2) :
    exec .scEval2 s = .next { s with sc := s.sc.eval2 s.cfg } :=
  whenSelected_of hphase _

/-- SC_SETTLE where it is selected, in terms of the scanner function. -/
theorem exec_scSettle_of_phase_eq (hphase : s.sc.phase = .settle) :
    exec .scSettle s = .next { s with sc := s.sc.settle s.cfg } :=
  whenSelected_of hphase _

/-- SC_IDLE where it is selected, in terms of the scanner function. -/
theorem exec_scIdle_of_phase_eq (hphase : s.sc.phase = .idle) :
    exec .scIdle s = .next { s with sc := s.sc.idle } :=
  whenSelected_of hphase _

end steps

/-- Settles O28, by the three cases of EDGE. -/
theorem edgeEmitsExactlyOnChange : Obligations.EdgeEmitsExactlyOnChange := by
  unfold Obligations.EdgeEmitsExactlyOnChange
  intro b v s
  rw [exec_edge]
  refine ⟨fun hinit => ?_, fun hinit hchange => ?_, fun hinit hsame => ?_⟩
  · rw [edge_of_init hinit, Scanner.noEvent, Scanner.setBtn]
  · rw [edge_of_ne hinit hchange, Scanner.emit, Scanner.setBtn]
  · rw [edge_of_eq hinit hsame, Scanner.noEvent]

/-- Settles O33: with the timer run down, a next row is strobed; row 5 has none and ends the cycle, by the two idle
settings. -/
theorem scSettleAdvancesRowOrEndsCycle : Obligations.ScSettleAdvancesRowOrEndsCycle := by
  unfold Obligations.ScSettleAdvancesRowOrEndsCycle
  intro s hphase
  rw [exec_scSettle_of_phase_eq hphase]
  refine ⟨fun htimer => ?_, fun htimer r _ hnext => ?_, fun htimer hlast hidle => ?_, fun htimer hlast hidle => ?_⟩
  · rw [scannerSettle_of_timer_pos htimer, Scanner.noEvent]
  · rw [scannerSettle_of_next_row htimer hnext, Scanner.strobe, Scanner.noEvent]
  · rw [scannerSettle_of_last_row htimer hlast, endCycle_of_idleTicks_pos hidle, Scanner.noEvent]
  · rw [scannerSettle_of_last_row htimer hlast, endCycle_of_idleTicks_eq_zero hidle, Scanner.noEvent]

/-- Settles O29: SC_DIRECT is EDGE on the direct button, which is button 0, followed by the strobe of the first row. -/
theorem scDirectSamplesPenButton : Obligations.ScDirectSamplesPenButton := by
  unfold Obligations.ScDirectSamplesPenButton
  intro level s hphase
  refine ⟨_, exec_edge 0 _ s, ?_⟩
  rw [exec_scDirect_of_phase_eq level hphase, Scanner.direct, Scanner.strobe, directSample, directButton]

/-- Settles O30, by the two cases of the timer. -/
theorem scRowOnLatchesBothColumns : Obligations.ScRowOnLatchesBothColumns := by
  unfold Obligations.ScRowOnLatchesBothColumns
  intro col1 col2 s hphase
  rw [exec_scRowOn_of_phase_eq col1 col2 hphase]
  refine ⟨fun htimer => ?_, fun htimer => ?_⟩
  · rw [scannerRowOn_of_timer_pos htimer, Scanner.noEvent]
  · rw [scannerRowOn_of_timer_eq_zero htimer, Scanner.noEvent]

/-- Settles O31: the button of the rule's formula is the one SC_EVAL1 hands to EDGE. -/
theorem scEval1ComparesFirstColumn : Obligations.ScEval1ComparesFirstColumn := by
  unfold Obligations.ScEval1ComparesFirstColumn
  intro b s hphase hb
  refine ⟨_, exec_edge b _ s, ?_⟩
  rw [exec_scEval1_of_phase_eq hphase, Scanner.eval1, eq_matrixButton_of_val_eq (c := 0) hb]

/-- Settles O32: the button of the rule's formula is the one SC_EVAL2 hands to EDGE. -/
theorem scEval2ComparesSecondColumn : Obligations.ScEval2ComparesSecondColumn := by
  unfold Obligations.ScEval2ComparesSecondColumn
  intro b s hphase hb
  refine ⟨_, exec_edge b _ s, ?_⟩
  rw [exec_scEval2_of_phase_eq hphase, Scanner.eval2, eq_matrixButton_of_val_eq (c := 1) hb]

/-- Settles O34, by the two cases of the timer. -/
theorem scIdleCountsThenRestarts : Obligations.ScIdleCountsThenRestarts := by
  unfold Obligations.ScIdleCountsThenRestarts
  intro s hphase
  rw [exec_scIdle_of_phase_eq hphase]
  refine ⟨fun htimer => ?_, fun htimer => ?_⟩
  · rw [scannerIdle_of_timer_pos htimer, Scanner.noEvent]
  · rw [scannerIdle_of_timer_eq_zero htimer, Scanner.noEvent]

end Sys2Proof.Machine
end

section
/-! SUPPORT. The column levels of the ideal keypad (R118), as the input ports see them. -/

namespace Sys2Proof.Machine

open Sys2Proof

/-- R31: the row port shows the row function that the input ports are sampled with. -/
theorem out_row_eq_rowOut (s : State) (r : Row) : s.out.row[r] = s.rowOut r := by
  simp [State.out]

theorem input_of_stim_eq_cons {s : State} {x : Stimulus} {rest : List Stimulus} (hstim : s.stim = x :: rest) :
    s.input = sampleStimulus x s.rowOut := by
  rw [State.input, hstim]

/-- R118: when a column of the ideal keypad is high, in terms of the row levels. -/
theorem idealColumn_eq_true_iff {rowHigh : Row → Bool} {pressed : List (Row × Column)} {c : Column} :
    idealColumn rowHigh pressed c = true ↔ ∃ r, rowHigh r = true ∧ (r, c) ∈ pressed := by
  rw [idealColumn, List.any_eq_true]
  constructor
  · rintro ⟨⟨r, c'⟩, hpressed, hkey⟩
    obtain ⟨hhigh, hcolumn⟩ := Bool.and_eq_true_iff.mp hkey
    obtain rfl : c' = c := of_decide_eq_true hcolumn
    exact ⟨r, hhigh, hpressed⟩
  · rintro ⟨r, hhigh, hpressed⟩
    exact ⟨(r, c), hpressed, Bool.and_eq_true_iff.mpr ⟨hhigh, decide_eq_true rfl⟩⟩

/-- Settles O42: with a keypad stimulus queued each column port is the ideal column under the row lines of this clock. -/
theorem idealKeypadFollowsRowLines : Obligations.IdealKeypadFollowsRowLines := by
  unfold Obligations.IdealKeypadFollowsRowLines
  intro s rst setValid direct left right pressed rest hstim
  simp only [input_of_stim_eq_cons hstim, out_row_eq_rowOut]
  exact ⟨idealColumn_eq_true_iff, idealColumn_eq_true_iff, rfl⟩

end Sys2Proof.Machine
end

section
/-! SUPPORT. Runs of clocks: a state without requests always has a next clock, which leaves it without requests
(R115). -/

namespace Sys2Proof.Machine

open Sys2Proof

/-- A run begins with the step from its first state. -/
theorem run_succ_of_step_eq_next {s t : State} (hstep : step s = .next t) (n : Nat) :
    Host.Core.run core (n + 1) s = Host.Core.run core n t := by
  have hcore : core.step s = .next t := hstep
  simp only [Host.Core.run, hcore]

/-- Without a request a step is one more clock, whether or not it is a RESET clock, and requests nothing. -/
theorem exists_step_eq_next_of_ops_eq_nil {s : State} (hquiet : s.ops = []) :
    ∃ t, step s = .next t ∧ t.ops = [] ∧ t.clock = s.clock + 1 := by
  rw [step_clock hquiet]
  rcases clockStep_cases s with ⟨-, hclock⟩ | ⟨-, hclock⟩
  · exact ⟨_, hclock, hquiet, rfl⟩
  · exact ⟨_, hclock, hquiet, rfl⟩

/-- Settles O53, by induction on the number of clocks. -/
theorem clocksNeverStop : Obligations.ClocksNeverStop := by
  unfold Obligations.ClocksNeverStop
  intro s n hquiet
  induction n generalizing s with
  | zero => exact ⟨s, rfl, hquiet, rfl⟩
  | succ n ih =>
    obtain ⟨t, hstep, htquiet, htclock⟩ := exists_step_eq_next_of_ops_eq_nil hquiet
    obtain ⟨u, hrun, huquiet, huclock⟩ := ih t htquiet
    exact ⟨u, (run_succ_of_step_eq_next hstep n).trans hrun, huquiet, by omega⟩

end Sys2Proof.Machine
end

section
/-! SUPPORT. RESET as an operation (R121), and the values it leaves in the registers (R34). -/

namespace Sys2Proof.Machine

open Sys2Proof

/-- R121: RESET goes on from every state, with the registers reset. -/
theorem exec_reset (s : State) : exec .reset s = .next s.resetRegisters := rfl

/-- Settles O46: RESET answers the state with its registers reset, and these are the three records of R34. -/
theorem resetClearsEveryRegister : Obligations.ResetClearsEveryRegister := by
  unfold Obligations.ResetClearsEveryRegister
  intro s
  rw [exec_reset, State.resetRegisters, Mailbox.reset, Mux.reset, Scanner.reset]

end Sys2Proof.Machine
end

section
/-! SUPPORT. The operand field of each operation taken apart, and the operation words as exactly the encodings of the
well-formed operations (log 1). -/

namespace Sys2Proof

section bits
variable {m n w : Nat}

/-- A word is put together from two parts exactly when they are its two fields. -/
theorem eq_append_iff {x : BitVec (m + n)} {hi : BitVec m} {lo : BitVec n} :
    x = hi ++ lo ↔ x.extractLsb' n m = hi ∧ x.extractLsb' 0 n = lo := by
  constructor
  · rintro rfl
    exact ⟨BitVec.extractLsb'_append_eq_left, BitVec.extractLsb'_append_eq_right⟩
  · rintro ⟨rfl, rfl⟩
    exact BitVec.extractLsb'_append_extractLsb'.symm

/-- A field of one bit holds a level exactly when that bit of the word is the level. -/
theorem extractLsb'_one_eq_ofBool_iff {x : BitVec w} {k : Nat} {level : Bool} :
    x.extractLsb' k 1 = BitVec.ofBool level ↔ x.getLsbD k = level := by
  have hbit : x.extractLsb' k 1 = BitVec.ofBool (x.getLsbD k) := by
    ext i hi
    obtain rfl : i = 0 := by omega
    simp
  rw [hbit, BitVec.ofBool_eq_iff_eq]

end bits

section operands
variable {operand : BitVec 32}

theorem eq_operand_decompose_iff {v : Value} :
    operand = (Instr.decompose v).operand ↔ operand.extractLsb' 16 16 = 0 ∧ operand.extractLsb' 0 16 = v :=
  eq_append_iff (m := 16) (n := 16)

theorem eq_operand_encode_iff {code : BitVec 4} :
    operand = (Instr.encode code).operand ↔ operand.extractLsb' 4 28 = 0 ∧ operand.extractLsb' 0 4 = code :=
  eq_append_iff (m := 28) (n := 4)

/-- SET and SET_TAKE carry the same operands. -/
theorem eq_operand_set_iff {left right : Value} :
    operand = (Instr.set left right).operand ↔
      operand.extractLsb' 16 16 = left ∧ operand.extractLsb' 0 16 = right :=
  eq_append_iff (m := 16) (n := 16)

theorem eq_operand_scDirect_iff {direct : Bool} :
    operand = (Instr.scDirect direct).operand ↔ operand.extractLsb' 1 31 = 0 ∧ operand.getLsbD 0 = direct := by
  rw [← extractLsb'_one_eq_ofBool_iff]
  exact eq_append_iff (m := 31) (n := 1)

theorem eq_operand_scRowOn_iff {col1 col2 : Bool} :
    operand = (Instr.scRowOn col1 col2).operand ↔
      operand.extractLsb' 2 30 = 0 ∧ operand.getLsbD 0 = col1 ∧ operand.getLsbD 1 = col2 := by
  have hcolumns : operand.extractLsb' 0 2 = BitVec.ofBool col2 ++ BitVec.ofBool col1 ↔
      operand.getLsbD 1 = col2 ∧ operand.getLsbD 0 = col1 := by
    rw [eq_append_iff (m := 1) (n := 1), extractLsb'_one_eq_ofBool_iff, extractLsb'_one_eq_ofBool_iff]
    simp
  rw [and_comm (a := operand.getLsbD 0 = col1), ← hcolumns]
  exact eq_append_iff (m := 30) (n := 2)

theorem eq_operand_edge_iff {b : ButtonId} {v : Bool} :
    operand = (Instr.edge b v).operand ↔
      operand.extractLsb' 5 27 = 0 ∧ (operand.extractLsb' 0 4).toNat = b.val ∧ operand.getLsbD 4 = v := by
  have hevent : operand.extractLsb' 0 5 = BitVec.ofBool v ++ BitVec.ofNat 4 b.val ↔
      operand.getLsbD 4 = v ∧ (operand.extractLsb' 0 4).toNat = b.val := by
    rw [eq_append_iff (m := 1) (n := 4), extractLsb'_one_eq_ofBool_iff,
      BitVec.extractLsb'_extractLsb'_of_le (by decide), ← BitVec.toNat_inj, BitVec.toNat_ofNat,
      Nat.mod_eq_of_lt (by omega : b.val < 2 ^ 4)]
    simp
  rw [and_comm (a := (operand.extractLsb' 0 4).toNat = b.val), ← hevent]
  exact eq_append_iff (m := 27) (n := 5)

end operands

section decoders
variable {operand : BitVec 32} {i j : Instr}

/-- A guarded answer is given exactly where the guard holds. -/
theorem ite_ok_eq_ok_iff {p : Prop} [Decidable p] {e : DecodeError} :
    (if p then Except.ok i else .error e) = .ok j ↔ p ∧ i = j := by
  split <;> simp_all

theorem decodePlain_eq_ok_iff : decodePlain operand i = .ok j ↔ operand = 0 ∧ i = j := ite_ok_eq_ok_iff

theorem decodeDecompose_eq_ok_iff :
    decodeDecompose operand = .ok i ↔ ∃ v, i = .decompose v ∧ operand = i.operand := by
  rw [decodeDecompose, ite_ok_eq_ok_iff]
  constructor
  · rintro ⟨hzero, rfl⟩
    exact ⟨_, rfl, eq_operand_decompose_iff.mpr ⟨hzero, rfl⟩⟩
  · rintro ⟨v, rfl, h⟩
    obtain ⟨hzero, rfl⟩ := eq_operand_decompose_iff.mp h
    exact ⟨hzero, rfl⟩

theorem decodeEncode_eq_ok_iff :
    decodeEncode operand = .ok i ↔ ∃ code, i = .encode code ∧ operand = i.operand ∧ code.toNat < 10 := by
  rw [decodeEncode]
  constructor
  · intro h
    split at h
    · obtain ⟨hdigit, rfl⟩ := ite_ok_eq_ok_iff.mp h
      exact ⟨_, rfl, eq_operand_encode_iff.mpr ⟨‹_›, rfl⟩, hdigit⟩
    · cases h
  · rintro ⟨code, rfl, h, hdigit⟩
    obtain ⟨hzero, rfl⟩ := eq_operand_encode_iff.mp h
    rw [if_pos hzero, if_pos hdigit]

theorem decodeScDirect_eq_ok_iff :
    decodeScDirect operand = .ok i ↔ ∃ direct, i = .scDirect direct ∧ operand = i.operand := by
  rw [decodeScDirect, ite_ok_eq_ok_iff]
  constructor
  · rintro ⟨hzero, rfl⟩
    exact ⟨_, rfl, eq_operand_scDirect_iff.mpr ⟨hzero, rfl⟩⟩
  · rintro ⟨direct, rfl, h⟩
    obtain ⟨hzero, rfl⟩ := eq_operand_scDirect_iff.mp h
    exact ⟨hzero, rfl⟩

theorem decodeScRowOn_eq_ok_iff :
    decodeScRowOn operand = .ok i ↔ ∃ col1 col2, i = .scRowOn col1 col2 ∧ operand = i.operand := by
  rw [decodeScRowOn, ite_ok_eq_ok_iff]
  constructor
  · rintro ⟨hzero, rfl⟩
    exact ⟨_, _, rfl, eq_operand_scRowOn_iff.mpr ⟨hzero, rfl, rfl⟩⟩
  · rintro ⟨col1, col2, rfl, h⟩
    obtain ⟨hzero, rfl, rfl⟩ := eq_operand_scRowOn_iff.mp h
    exact ⟨hzero, rfl⟩

theorem decodeEdge_eq_ok_iff :
    decodeEdge operand = .ok i ↔ ∃ b v, i = .edge b v ∧ operand = i.operand := by
  rw [decodeEdge]
  constructor
  · intro h
    split at h
    · split at h
      · cases h
        exact ⟨_, _, rfl, eq_operand_edge_iff.mpr ⟨‹_›, rfl, rfl⟩⟩
      · cases h
    · cases h
  · rintro ⟨b, v, rfl, h⟩
    obtain ⟨hzero, hb, rfl⟩ := eq_operand_edge_iff.mp h
    have hid : (operand.extractLsb' 0 4).toNat < 11 := hb.trans_lt b.isLt
    rw [if_pos hzero, dif_pos hid, show (⟨_, hid⟩ : ButtonId) = b from Fin.ext hb]

end decoders

section words
variable {operand : BitVec 32} {i j : Instr} {id : Nat}

/-- A well-formed operation, with its id and its operand field. -/
structure Carries (id : Nat) (operand : BitVec 32) (i : Instr) : Prop where
  idEq : id = i.opId.toNat
  operandEq : operand = i.operand
  wf : i.wf = true

theorem carries_of_decodePlain (h : decodePlain operand i = .ok j) (hoperand : i.operand = 0) (hwf : i.wf = true) :
    Carries i.opId.toNat operand j := by
  obtain ⟨hzero, rfl⟩ := decodePlain_eq_ok_iff.mp h
  exact ⟨rfl, hzero.trans hoperand.symm, hwf⟩

theorem carries_of_decodeFields (h : decodeFields id operand = .ok i) : Carries id operand i := by
  unfold decodeFields at h
  split at h
  · obtain ⟨v, rfl, hoperand⟩ := decodeDecompose_eq_ok_iff.mp h
    exact ⟨rfl, hoperand, rfl⟩
  · obtain ⟨code, rfl, hoperand, hdigit⟩ := decodeEncode_eq_ok_iff.mp h
    exact ⟨rfl, hoperand, decide_eq_true hdigit⟩
  · exact carries_of_decodePlain h rfl rfl
  · cases h
    exact ⟨rfl, eq_operand_set_iff.mpr ⟨rfl, rfl⟩, rfl⟩
  · exact carries_of_decodePlain h rfl rfl
  · cases h
    exact ⟨rfl, eq_operand_set_iff.mpr ⟨rfl, rfl⟩, rfl⟩
  · exact carries_of_decodePlain h rfl rfl
  · exact carries_of_decodePlain h rfl rfl
  · exact carries_of_decodePlain h rfl rfl
  · exact carries_of_decodePlain h rfl rfl
  · obtain ⟨direct, rfl, hoperand⟩ := decodeScDirect_eq_ok_iff.mp h
    exact ⟨rfl, hoperand, rfl⟩
  · obtain ⟨col1, col2, rfl, hoperand⟩ := decodeScRowOn_eq_ok_iff.mp h
    exact ⟨rfl, hoperand, rfl⟩
  · exact carries_of_decodePlain h rfl rfl
  · exact carries_of_decodePlain h rfl rfl
  · exact carries_of_decodePlain h rfl rfl
  · exact carries_of_decodePlain h rfl rfl
  · obtain ⟨b, v, rfl, hoperand⟩ := decodeEdge_eq_ok_iff.mp h
    exact ⟨rfl, hoperand, rfl⟩
  · exact carries_of_decodePlain h rfl rfl
  · cases h

/-- The dispatch on the id reaches the operation's own decoder, which reads the operand field back. -/
theorem decodeFields_opId_operand (hwf : i.wf = true) : decodeFields i.opId.toNat i.operand = .ok i := by
  cases i with
  | decompose v => exact decodeDecompose_eq_ok_iff.mpr ⟨v, rfl, rfl⟩
  | encode code => exact decodeEncode_eq_ok_iff.mpr ⟨code, rfl, rfl, of_decide_eq_true hwf⟩
  | set left right =>
    obtain ⟨hleft, hright⟩ := eq_operand_set_iff.mp (rfl : (Instr.set left right).operand = _)
    exact congrArg Except.ok (congrArg₂ Instr.set hleft hright)
  | setTake left right =>
    obtain ⟨hleft, hright⟩ := eq_operand_set_iff.mp (rfl : (Instr.set left right).operand = _)
    exact congrArg Except.ok (congrArg₂ Instr.setTake hleft hright)
  | scDirect direct => exact decodeScDirect_eq_ok_iff.mpr ⟨direct, rfl, rfl⟩
  | scRowOn col1 col2 => exact decodeScRowOn_eq_ok_iff.mpr ⟨col1, col2, rfl, rfl⟩
  | edge b v => exact decodeEdge_eq_ok_iff.mpr ⟨b, v, rfl, rfl⟩
  | encodeBlank | tryTake | slotHold | mxDrain | mxSetup | mxDwell | scEval1 | scEval2 | scSettle | scIdle | reset =>
    exact decodePlain_eq_ok_iff.mpr ⟨rfl, rfl⟩

/-- The words that decode are the encodings of the well-formed operations. -/
theorem decode_eq_ok_iff {w : OpWord} : decode w = .ok i ↔ w = encode i ∧ i.wf = true := by
  constructor
  · intro h
    obtain ⟨hid, hoperand, hwf⟩ := carries_of_decodeFields h
    refine ⟨?_, hwf⟩
    calc w
      _ = operandOf w ++ opIdOf w := (operand_append_opId w).symm
      _ = encode i := by rw [hoperand, BitVec.eq_of_toNat_eq hid, encode]
  · rintro ⟨rfl, hwf⟩
    exact (decode_append _ _).trans (decodeFields_opId_operand hwf)

end words

/-- Settles O58: the encoding of a well-formed operation is a word that decodes to it. -/
theorem decodeInvertsEncode : Obligations.DecodeInvertsEncode := by
  unfold Obligations.DecodeInvertsEncode
  intro i hwf
  exact decode_eq_ok_iff.mpr ⟨rfl, hwf⟩

/-- Settles O59: a word that decodes is the encoding of a well-formed operation. -/
theorem encodeInvertsDecode : Obligations.EncodeInvertsDecode := by
  unfold Obligations.EncodeInvertsDecode
  intro w i h
  obtain ⟨hword, hwf⟩ := decode_eq_ok_iff.mp h
  exact ⟨hword.symm, hwf⟩

/-- A number that the opcode table gives for the word of a well-formed operation reads as that operation. -/
theorem decodeTableWord_eq_some {nbits w : Nat} {i : Instr} (hword : BitVec.ofNat 40 (w % 2 ^ nbits) = encode i)
    (hwf : i.wf = true) : decodeTableWord nbits w = some i := by
  rw [decodeTableWord, decode_eq_ok_iff.mpr ⟨hword, hwf⟩]
  rfl

/-- R60: an id that is not in the operation table is no operation, whatever the operand field. -/
theorem decodeFields_of_notMem {id : Nat} (operand : BitVec 32)
    (hid : id ∉ [0x01, 0x11, 0x12, 0x21, 0x22, 0x23, 0x24, 0x31, 0x32, 0x33, 0x41, 0x42, 0x43, 0x44, 0x45, 0x46, 0x47,
      0x71]) : decodeFields id operand = .error .unknownOperation := by
  unfold decodeFields
  split <;> simp at hid ⊢

/-- Settles O60: each table word is the encoding of its operation, and the dispatch has no case for another id. -/
theorem tableIdsDecodeToOperations : Obligations.TableIdsDecodeToOperations := by
  unfold Obligations.TableIdsDecodeToOperations
  refine ⟨?_, ?_, ?_, ?_, ?_, ?_, ?_, ?_, ?_, ?_, ?_, ?_, ?_, ?_, ?_, ?_, ?_, ?_,
    fun w hid => decodeFields_of_notMem (operandOf w) hid⟩
  all_goals exact decodeTableWord_eq_some rfl rfl

end Sys2Proof
end

section
/-! SUPPORT. The encoder's input word (R50) and the stimulus word (R57). -/

namespace Sys2Proof

section encoderInput
variable {w : BitVec 5}

/-- R50: a word below 16 has the blank bit 0 and is its own code. -/
theorem decodeEncoderInput_of_lt (hw : w.toNat < 16) :
    decodeEncoderInput w = if w.toNat < 10 then .ok (.encode (w.setWidth 4)) else .error .reservedDigitCode := by
  have hblank : w.getLsbD 4 = false := Nat.testBit_lt_two_pow hw
  have hcode : (w.setWidth 4).toNat = w.toNat := by rw [BitVec.toNat_setWidth, Nat.mod_eq_of_lt hw]
  rw [decodeEncoderInput, hblank, if_neg Bool.false_ne_true, hcode]

end encoderInput

/-- Settles O6: the blank bit decides first, and below 16 it is 0. -/
theorem encoderInputWordDecodes : Obligations.EncoderInputWordDecodes := by
  unfold Obligations.EncoderInputWordDecodes
  intro w
  refine ⟨fun hblank => if_pos hblank, fun hdigit => ?_, fun hlarge hw => ?_⟩
  · rw [decodeEncoderInput_of_lt (by omega), if_pos hdigit]
  · rw [decodeEncoderInput_of_lt hw, if_neg hlarge.not_gt]

/-- R57: a word is the word of a stimulus exactly when its four fields are that stimulus's. -/
theorem eq_toWord_iff {w : StimulusWord} {x : Stimulus} :
    w = x.toWord ↔
      w.getLsbD 33 = x.rst ∧ w.getLsbD 32 = x.setValid ∧ w.extractLsb' 16 16 = x.setLeft ∧
        w.extractLsb' 0 16 = x.setRight := by
  have hvalues (y : BitVec 32) : y = x.setLeft ++ x.setRight ↔ _ := eq_append_iff (m := 16) (n := 16)
  have hset (y : BitVec 33) : y = BitVec.ofBool x.setValid ++ (x.setLeft ++ x.setRight) ↔ _ :=
    eq_append_iff (m := 1) (n := 32)
  have hword : w = x.toWord ↔ _ := eq_append_iff (m := 1) (n := 33)
  rw [hword, hset, hvalues, extractLsb'_one_eq_ofBool_iff, extractLsb'_one_eq_ofBool_iff]
  simp

/-- Settles O45: every clause reads the four fields of the word. -/
theorem stimulusWordRoundTrip : Obligations.StimulusWordRoundTrip := by
  unfold Obligations.StimulusWordRoundTrip
  refine ⟨fun _ => (eq_toWord_iff.mpr ⟨rfl, rfl, rfl, rfl⟩).symm, fun x => ?_, fun w keys => ?_⟩
  · obtain ⟨hrst, hvalid, hleft, hright⟩ := eq_toWord_iff.mp (rfl : x.toWord = x.toWord)
    rw [Stimulus.ofWord, hrst, hvalid, hleft, hright]
  · exact (eq_toWord_iff.mpr ⟨rfl, rfl, rfl, rfl⟩).symm

end Sys2Proof
end

section
/-! SUPPORT. When an operation goes on (R58), and what an operation or a step can leave in the parameters, the
multiplexer and the scanner. -/

namespace Sys2Proof.Machine

open Sys2Proof

section selection
variable {i : Instr} {s t : State}

/-- A guarded meaning goes on where its selector holds and is refused by name elsewhere. -/
theorem runs_iff_of_whenSelected {p : Prop} {_ : Decidable p} (t : State) :
    (p → ∃ u, whenSelected p t = .next u) ∧ (¬p → whenSelected p t = .refused .notSelected) :=
  ⟨fun h => ⟨t, whenSelected_of h t⟩, fun h => whenSelected_of_not h t⟩

/-- A meaning without a selector goes on in every state. -/
theorem runs_iff_of_always {p : Prop} {r : Result} (hp : p) (hruns : r = .next t) :
    (p → ∃ u, r = .next u) ∧ (¬p → r = .refused .notSelected) :=
  ⟨fun _ => ⟨t, hruns⟩, fun h => absurd hp h⟩

/-- Settles O51: an operation without a selector always goes on, ENCODE because its code is a digit; every other one is
guarded by its selector. -/
theorem operationsRunExactlyWhereSelected : Obligations.OperationsRunExactlyWhereSelected := by
  unfold Obligations.OperationsRunExactlyWhereSelected
  intro i s hwf
  cases i with
  | decompose v => exact runs_iff_of_always trivial (exec_decompose v s)
  | encode code =>
    have hdigit : digitOfCode code = some ⟨code.toNat, of_decide_eq_true hwf⟩ := dif_pos _
    exact runs_iff_of_always trivial (exec_encode_of_some hdigit s)
  | encodeBlank => exact runs_iff_of_always trivial (exec_encodeBlank s)
  | edge b v => exact runs_iff_of_always trivial (exec_edge b v s)
  | reset => exact runs_iff_of_always trivial (exec_reset s)
  | set _ _ | tryTake | setTake _ _ | slotHold | mxDrain | mxSetup | mxDwell | scDirect _ | scRowOn _ _ | scEval1
  | scEval2 | scSettle | scIdle => exact runs_iff_of_whenSelected _

end selection

section phases
variable {s : State}

/-- R84: a clock in SETUP gives the multiplexer the registers of MX_SETUP. -/
theorem muxAfter_of_setup (hphase : s.mx.phase = .setup) : muxAfter s = s.mx.setup s.cfg := by
  rw [muxAfter, hphase]

/-- R85: a clock in DWELL gives the multiplexer the registers of MX_DWELL. -/
theorem muxAfter_of_dwell (hphase : s.mx.phase = .dwell) : muxAfter s = s.mx.dwell s.cfg := by
  rw [muxAfter, hphase]

variable (x : Input)

/-- R93: a clock in DIRECT gives the scanner the registers of SC_DIRECT. -/
theorem scannerAfter_of_direct (hphase : s.sc.phase = .direct) :
    scannerAfter s x = s.sc.direct s.cfg x.direct := by
  rw [scannerAfter, hphase]

/-- R94: a clock in ROW_ON gives the scanner the registers of SC_ROW_ON. -/
theorem scannerAfter_of_rowOn (hphase : s.sc.phase = .rowOn) : scannerAfter s x = s.sc.rowOn x.col := by
  rw [scannerAfter, hphase]

/-- R95: a clock in EVAL1 gives the scanner the registers of SC_EVAL1. -/
theorem scannerAfter_of_eval1 (hphase : s.sc.phase = .eval1) : scannerAfter s x = s.sc.eval1 := by
  rw [scannerAfter, hphase]

/-- R96: a clock in EVAL2 gives the scanner the registers of SC_EVAL2. -/
theorem scannerAfter_of_eval2 (hphase : s.sc.phase = .eval2) : scannerAfter s x = s.sc.eval2 s.cfg := by
  rw [scannerAfter, hphase]

/-- R97: a clock in SETTLE gives the scanner the registers of SC_SETTLE. -/
theorem scannerAfter_of_settle (hphase : s.sc.phase = .settle) : scannerAfter s x = s.sc.settle s.cfg := by
  rw [scannerAfter, hphase]

/-- R98: a clock in IDLE gives the scanner the registers of SC_IDLE. -/
theorem scannerAfter_of_idle (hphase : s.sc.phase = .idle) : scannerAfter s x = s.sc.idle := by
  rw [scannerAfter, hphase]

end phases

/-- What an operation or a clock from `s` can leave in `t`: the parameters as they are, the multiplexer and the scanner
held, reset or moved on, the scanner also after an EDGE alone. -/
structure Moves (s t : State) : Prop where
  cfg : t.cfg = s.cfg
  mx : t.mx = s.mx ∨ t.mx = Mux.reset ∨ t.mx = muxAfter s
  sc : t.sc = s.sc ∨ t.sc = Scanner.reset ∨ (∃ x, t.sc = scannerAfter s x) ∨ ∃ b v, t.sc = s.sc.edge b v

section moves
variable {i : Instr} {s t : State}

theorem moves_of_mx (hcfg : t.cfg = s.cfg) (hmx : t.mx = muxAfter s) (hsc : t.sc = s.sc) : Moves s t :=
  ⟨hcfg, .inr (.inr hmx), .inl hsc⟩

theorem moves_of_sc (hcfg : t.cfg = s.cfg) (hmx : t.mx = s.mx) {x : Input} (hsc : t.sc = scannerAfter s x) :
    Moves s t :=
  ⟨hcfg, .inl hmx, .inr (.inr (.inl ⟨x, hsc⟩))⟩

theorem moves_of_exec (h : exec i s = .next t) : Moves s t := by
  cases i with
  | decompose _ | encodeBlank =>
    cases h
    exact ⟨rfl, .inl rfl, .inl rfl⟩
  | encode code =>
    cases hdigit : digitOfCode code with
    | none => simp [exec_encode_of_none hdigit] at h
    | some d =>
      cases (exec_encode_of_some hdigit s).symm.trans h
      exact ⟨rfl, .inl rfl, .inl rfl⟩
  | set _ _ | tryTake | setTake _ _ | slotHold =>
    obtain ⟨-, rfl⟩ := whenSelected_eq_next.mp h
    exact ⟨rfl, .inl rfl, .inl rfl⟩
  | mxDrain =>
    obtain ⟨hphase, rfl⟩ := whenSelected_eq_next.mp h
    exact moves_of_mx rfl (muxAfter_of_drain hphase).symm rfl
  | mxSetup =>
    obtain ⟨hphase, rfl⟩ := whenSelected_eq_next.mp h
    exact moves_of_mx rfl (muxAfter_of_setup hphase).symm rfl
  | mxDwell =>
    obtain ⟨hphase, rfl⟩ := whenSelected_eq_next.mp h
    exact moves_of_mx rfl (muxAfter_of_dwell hphase).symm rfl
  | scDirect direct =>
    obtain ⟨hphase, rfl⟩ := whenSelected_eq_next.mp h
    exact moves_of_sc rfl rfl (scannerAfter_of_direct { s.input with direct := direct } hphase).symm
  | scRowOn col1 col2 =>
    obtain ⟨hphase, rfl⟩ := whenSelected_eq_next.mp h
    exact moves_of_sc rfl rfl (scannerAfter_of_rowOn { s.input with col := ⟨col1, col2⟩ } hphase).symm
  | scEval1 =>
    obtain ⟨hphase, rfl⟩ := whenSelected_eq_next.mp h
    exact moves_of_sc rfl rfl (scannerAfter_of_eval1 s.input hphase).symm
  | scEval2 =>
    obtain ⟨hphase, rfl⟩ := whenSelected_eq_next.mp h
    exact moves_of_sc rfl rfl (scannerAfter_of_eval2 s.input hphase).symm
  | scSettle =>
    obtain ⟨hphase, rfl⟩ := whenSelected_eq_next.mp h
    exact moves_of_sc rfl rfl (scannerAfter_of_settle s.input hphase).symm
  | scIdle =>
    obtain ⟨hphase, rfl⟩ := whenSelected_eq_next.mp h
    exact moves_of_sc rfl rfl (scannerAfter_of_idle s.input hphase).symm
  | edge b v =>
    cases h
    exact ⟨rfl, .inl rfl, .inr (.inr (.inr ⟨b, v, rfl⟩))⟩
  | reset =>
    cases h
    exact ⟨rfl, .inr (.inl rfl), .inr (.inl rfl)⟩

theorem moves_of_clockStep (h : clockStep s = .next t) : Moves s t := by
  rcases clockStep_cases s with ⟨-, hclock⟩ | ⟨-, hclock⟩
  · cases hclock.symm.trans h
    exact ⟨rfl, .inr (.inl rfl), .inr (.inl rfl)⟩
  · cases hclock.symm.trans h
    exact ⟨rfl, .inr (.inr rfl), .inr (.inr (.inl ⟨s.input, rfl⟩))⟩

/-- A step with a request performs it alone (log 2). -/
theorem step_request {w : OpWord} {rest : List OpWord} (hops : s.ops = w :: rest) : step s = requestStep w rest s := by
  rw [step, hops]

theorem requestStep_of_ok {w : OpWord} (rest : List OpWord) (hword : decode w = .ok i) :
    requestStep w rest s = exec i { s with ops := rest } := by
  rw [requestStep, hword]

theorem requestStep_of_error {w : OpWord} (rest : List OpWord) {e : DecodeError} (hword : decode w = .error e) :
    requestStep w rest s = .refused (.notAnOperation e) := by
  rw [requestStep, hword]

theorem moves_of_step (h : step s = .next t) : Moves s t := by
  cases hops : s.ops with
  | nil => exact moves_of_clockStep ((step_clock hops).symm.trans h)
  | cons w rest =>
    rw [step_request hops] at h
    cases hword : decode w with
    | error e => simp [requestStep_of_error rest hword] at h
    | ok i =>
      obtain ⟨hcfg, hmx, hsc⟩ := moves_of_exec ((requestStep_of_ok rest hword).symm.trans h)
      exact ⟨hcfg, hmx, hsc⟩

end moves

/-- Settles O52: the step looks at the request first, and the request is decoded first. -/
theorem stepRunsRequestedOperation : Obligations.StepRunsRequestedOperation := by
  unfold Obligations.StepRunsRequestedOperation
  intro s w rest hops
  rw [step_request hops]
  exact ⟨fun _ => requestStep_of_ok rest, fun _ => requestStep_of_error rest⟩

/-- Settles O57: no move touches the parameters. -/
theorem parametersNeverChange : Obligations.ParametersNeverChange := by
  unfold Obligations.ParametersNeverChange
  intro s t h
  exact (moves_of_step h).cfg

end Sys2Proof.Machine
end

section
/-! SUPPORT. The invariant of the registers, unit by unit: what the multiplexer shows, and how far the timers of the two
sequencers have still to count (R23, R26, R82, R88, R112). -/

namespace Sys2Proof.Machine

open Sys2Proof

section config
variable {cfg : Config}

/-- R7: what the constraints of the parameters say of the lengths of the phases. -/
structure PositiveTicks (cfg : Config) : Prop where
  setup : 0 < cfg.setupTicks
  dwell : 0 < cfg.dwellTicks
  row : 0 < cfg.rowSetupTicks
  settle : 0 < cfg.settleTicks

theorem positiveTicks_of_wf (hwf : cfg.wf = true) : PositiveTicks cfg := by
  simp only [Config.wf, Bool.and_eq_true, decide_eq_true_eq] at hwf
  obtain ⟨⟨⟨⟨hunit, hdwell⟩, hsettle⟩, hsetup⟩, hrow⟩ := hwf
  exact ⟨hsetup, Nat.mul_pos hdwell hunit, hrow, Nat.mul_pos hsettle hunit⟩

end config

/-- The length of a multiplexer phase in clocks (R83 to R85). -/
def MxPhase.ticks (cfg : Config) (p : MxPhase) : Nat :=
  match p with
  | .drain => 1
  | .setup => cfg.setupTicks
  | .dwell => cfg.dwellTicks

/-- The length of a scanner phase in clocks (R93 to R98). -/
def ScPhase.ticks (cfg : Config) (p : ScPhase) : Nat :=
  match p with
  | .direct => 1
  | .rowOn => cfg.rowSetupTicks
  | .eval1 => 1
  | .eval2 => 1
  | .settle => cfg.settleTicks
  | .idle => cfg.scanIdleTicks

/-- R82, R88: outside DRAIN the position is a shown one and the latch holds its pattern. -/
structure MuxShows (m : Mux) : Prop where
  posShown : m.phase ≠ .drain → m.digits.shown m.pos = true
  segHolds : m.phase ≠ .drain → m.seg = encodeDigit (m.digits.digit m.pos)

/-- R23, R112: the multiplexer's timer stays below the length of its phase. -/
def MuxTimed (cfg : Config) (m : Mux) : Prop := m.timer < m.phase.ticks cfg

/-- R26, R112: the scanner's timer stays below the length of its phase. -/
def ScannerTimed (cfg : Config) (sc : Scanner) : Prop := sc.timer < sc.phase.ticks cfg

/-- R102: the initialising cycle presents no event. -/
def InitSilent (sc : Scanner) : Prop := sc.init = true → sc.evtV = false

/-- The invariant, unit by unit. -/
theorem inv_iff {s : State} :
    Inv s ↔ s.cfg.wf = true ∧ MuxShows s.mx ∧ MuxTimed s.cfg s.mx ∧ ScannerTimed s.cfg s.sc ∧ InitSilent s.sc := by
  constructor
  · intro h
    refine ⟨h.cfgWf, ⟨h.posShown, h.segHolds⟩, ?_, ?_, h.initSilent⟩
    · unfold MuxTimed
      cases hphase : s.mx.phase with
      | drain => simp [MxPhase.ticks, h.drainTimer hphase]
      | setup => exact h.setupTimer hphase
      | dwell => exact h.dwellTimer hphase
    · unfold ScannerTimed
      cases hphase : s.sc.phase with
      | direct => simp [ScPhase.ticks, h.stillTimer (.inl hphase)]
      | rowOn => exact h.rowTimer hphase
      | eval1 => simp [ScPhase.ticks, h.stillTimer (.inr (.inl hphase))]
      | eval2 => simp [ScPhase.ticks, h.stillTimer (.inr (.inr hphase))]
      | settle => exact h.settleTimer hphase
      | idle => exact h.idleTimer hphase
  · rintro ⟨hcfg, hshows, hmux, hsc, hsilent⟩
    unfold MuxTimed at hmux
    unfold ScannerTimed at hsc
    refine ⟨hcfg, hshows.posShown, hshows.segHolds, fun hphase => ?_, fun hphase => ?_, fun hphase => ?_,
      fun hphase => ?_, fun hphase => ?_, fun hphase => ?_, fun hphase => ?_, hsilent⟩
    · simpa [hphase, MxPhase.ticks] using hmux
    · simpa [hphase, MxPhase.ticks] using hmux
    · simpa [hphase, MxPhase.ticks] using hmux
    · simpa [hphase, ScPhase.ticks] using hsc
    · simpa [hphase, ScPhase.ticks] using hsc
    · simpa [hphase, ScPhase.ticks] using hsc
    · rcases hphase with hphase | hphase | hphase <;> simpa [hphase, ScPhase.ticks] using hsc

section shows
variable {m : Mux} {s : State} (cfg : Config)

/-- In DRAIN nothing is asked of the position and the latch. -/
theorem muxShows_of_drain (hphase : m.phase = .drain) : MuxShows m :=
  ⟨fun h => absurd hphase h, fun h => absurd hphase h⟩

theorem muxShows_strobe {p : Position} (hshown : m.digits.shown p = true) : MuxShows (m.strobe cfg p) :=
  ⟨fun _ => hshown, fun _ => rfl⟩

/-- R83: a drain strobes a shown position of its new digits. -/
theorem muxShows_drain (taken : Option DisplayValue) : MuxShows (m.drain cfg taken) := by
  obtain ⟨hshown, -⟩ := firstShown_eq_iff.mp (rfl : (m.digits.drained taken).firstShown = _)
  exact muxShows_strobe cfg hshown

theorem MuxShows.setup (h : MuxShows m) (hphase : m.phase ≠ .drain) : MuxShows (m.setup cfg) := by
  rcases muxSetup_cases m cfg with ⟨-, hm⟩ | ⟨-, hm⟩ <;> rw [hm]
  · exact ⟨h.posShown, h.segHolds⟩
  · exact ⟨fun _ => h.posShown hphase, fun _ => h.segHolds hphase⟩

theorem MuxShows.dwell (h : MuxShows m) : MuxShows (m.dwell cfg) := by
  rcases muxDwell_cases m cfg with ⟨-, hm⟩ | ⟨-, q, hnext, hm⟩ | ⟨-, -, hm⟩ <;> rw [hm]
  · exact ⟨h.posShown, h.segHolds⟩
  · obtain ⟨-, hshown, -⟩ := nextShown_eq_some_iff.mp hnext
    exact muxShows_strobe cfg hshown
  · exact muxShows_of_drain rfl

theorem MuxShows.muxAfter (h : MuxShows s.mx) : MuxShows (muxAfter s) := by
  cases hphase : s.mx.phase with
  | drain =>
    rw [muxAfter_of_drain hphase]
    exact muxShows_drain s.cfg s.slot.taken
  | setup =>
    rw [muxAfter_of_setup hphase]
    exact h.setup s.cfg (by simp [hphase])
  | dwell =>
    rw [muxAfter_of_dwell hphase]
    exact h.dwell s.cfg

end shows

section timed
variable {m : Mux} {sc : Scanner} {cfg : Config} {s : State}

/-- A phase that starts with its length less 1 on the timer starts below its length. -/
theorem muxTimed_strobe (hpos : PositiveTicks cfg) (p : Position) : MuxTimed cfg (m.strobe cfg p) :=
  Nat.pred_lt_self hpos.setup

/-- Counting down keeps the timer below the length of the phase. -/
theorem MuxTimed.count (h : MuxTimed cfg m) : MuxTimed cfg { m with timer := m.timer - 1 } :=
  (Nat.sub_le m.timer 1).trans_lt h

theorem MuxTimed.setup (hpos : PositiveTicks cfg) (h : MuxTimed cfg m) : MuxTimed cfg (m.setup cfg) := by
  rcases muxSetup_cases m cfg with ⟨-, hm⟩ | ⟨-, hm⟩ <;> rw [hm]
  · exact h.count
  · exact Nat.pred_lt_self hpos.dwell

theorem MuxTimed.dwell (hpos : PositiveTicks cfg) (h : MuxTimed cfg m) : MuxTimed cfg (m.dwell cfg) := by
  rcases muxDwell_cases m cfg with ⟨-, hm⟩ | ⟨-, q, -, hm⟩ | ⟨htimer, -, hm⟩ <;> rw [hm]
  · exact h.count
  · exact muxTimed_strobe hpos q
  · exact htimer.trans_lt Nat.zero_lt_one

theorem MuxTimed.muxAfter (hpos : PositiveTicks s.cfg) (h : MuxTimed s.cfg s.mx) : MuxTimed s.cfg (muxAfter s) := by
  cases hphase : s.mx.phase with
  | drain =>
    rw [muxAfter_of_drain hphase]
    exact muxTimed_strobe hpos _
  | setup =>
    rw [muxAfter_of_setup hphase]
    exact h.setup hpos
  | dwell =>
    rw [muxAfter_of_dwell hphase]
    exact h.dwell hpos

/-- The scanner's timer and phase decide whether it is timed. -/
theorem ScannerTimed.of_eq {sc' : Scanner} (h : ScannerTimed cfg sc) (hphase : sc'.phase = sc.phase)
    (htimer : sc'.timer = sc.timer) : ScannerTimed cfg sc' := by
  rwa [ScannerTimed, hphase, htimer]

theorem ScannerTimed.count (h : ScannerTimed cfg sc) : ScannerTimed cfg { sc.noEvent with timer := sc.timer - 1 } :=
  (Nat.sub_le sc.timer 1).trans_lt h

theorem scannerTimed_strobe (hpos : PositiveTicks cfg) (r : Row) : ScannerTimed cfg (sc.strobe cfg r) :=
  Nat.pred_lt_self hpos.row

@[simp] theorem edge_phase (sc : Scanner) (b : ButtonId) (v : Bool) : (sc.edge b v).phase = sc.phase := by
  obtain ⟨hphase, -⟩ := edge_frame sc b v
  exact hphase

@[simp] theorem edge_row (sc : Scanner) (b : ButtonId) (v : Bool) : (sc.edge b v).row = sc.row := by
  obtain ⟨-, hrow, -⟩ := edge_frame sc b v
  exact hrow

@[simp] theorem edge_timer (sc : Scanner) (b : ButtonId) (v : Bool) : (sc.edge b v).timer = sc.timer := by
  obtain ⟨-, -, htimer, -⟩ := edge_frame sc b v
  exact htimer

theorem ScannerTimed.rowOn (h : ScannerTimed cfg sc) (col : Columns) : ScannerTimed cfg (sc.rowOn col) := by
  rcases scannerRowOn_cases sc col with ⟨-, hsc⟩ | ⟨htimer, hsc⟩ <;> rw [hsc]
  · exact h.count
  · exact htimer.trans_lt Nat.zero_lt_one

theorem ScannerTimed.eval1 (h : ScannerTimed cfg sc) (hphase : sc.phase = .eval1) : ScannerTimed cfg sc.eval1 := by
  rw [ScannerTimed, hphase] at h
  exact (edge_timer sc _ _).trans_lt h

theorem scannerTimed_eval2 (hpos : PositiveTicks cfg) : ScannerTimed cfg (sc.eval2 cfg) :=
  Nat.pred_lt_self hpos.settle

theorem ScannerTimed.settle (hpos : PositiveTicks cfg) (h : ScannerTimed cfg sc) :
    ScannerTimed cfg (sc.settle cfg) := by
  rcases scannerSettle_cases sc cfg with ⟨-, hsc⟩ | ⟨-, r, -, -, hsc⟩ | ⟨-, -, hidle, hsc⟩ | ⟨htimer, -, -, hsc⟩ <;>
    rw [hsc]
  · exact h.count
  · exact scannerTimed_strobe hpos r
  · exact Nat.pred_lt_self hidle
  · exact htimer.trans_lt Nat.zero_lt_one

theorem ScannerTimed.idle (h : ScannerTimed cfg sc) : ScannerTimed cfg sc.idle := by
  rcases scannerIdle_cases sc with ⟨-, hsc⟩ | ⟨htimer, hsc⟩ <;> rw [hsc]
  · exact h.count
  · exact htimer.trans_lt Nat.zero_lt_one

theorem ScannerTimed.scannerAfter (hpos : PositiveTicks s.cfg) (h : ScannerTimed s.cfg s.sc) (x : Input) :
    ScannerTimed s.cfg (scannerAfter s x) := by
  cases hphase : s.sc.phase with
  | direct =>
    rw [scannerAfter_of_direct x hphase]
    exact scannerTimed_strobe hpos 0
  | rowOn =>
    rw [scannerAfter_of_rowOn x hphase]
    exact h.rowOn x.col
  | eval1 =>
    rw [scannerAfter_of_eval1 x hphase]
    exact h.eval1 hphase
  | eval2 =>
    rw [scannerAfter_of_eval2 x hphase]
    exact scannerTimed_eval2 hpos
  | settle =>
    rw [scannerAfter_of_settle x hphase]
    exact h.settle hpos
  | idle =>
    rw [scannerAfter_of_idle x hphase]
    exact h.idle

end timed

section silent
variable {sc : Scanner} {cfg : Config} {s : State}

/-- R91: EDGE emits only after the initialising cycle. -/
theorem initSilent_edge (sc : Scanner) (b : ButtonId) (v : Bool) : InitSilent (sc.edge b v) := by
  intro hinit
  rcases edge_cases sc b v with ⟨-, h⟩ | ⟨hover, -, h⟩ | ⟨-, -, h⟩ <;> rw [h] at hinit ⊢
  · rfl
  · simp [hover] at hinit
  · rfl

/-- The phases without a sample present no event (R94, R97, R98). -/
theorem scannerRowOn_evtV (sc : Scanner) (col : Columns) : (sc.rowOn col).evtV = false := by
  rcases scannerRowOn_cases sc col with ⟨-, h⟩ | ⟨-, h⟩ <;> rw [h] <;> rfl

theorem scannerSettle_evtV (sc : Scanner) (cfg : Config) : (sc.settle cfg).evtV = false := by
  rcases scannerSettle_cases sc cfg with ⟨-, h⟩ | ⟨-, r, -, -, h⟩ | ⟨-, -, -, h⟩ | ⟨-, -, -, h⟩ <;> rw [h] <;> rfl

theorem scannerIdle_evtV (sc : Scanner) : sc.idle.evtV = false := by
  rcases scannerIdle_cases sc with ⟨-, h⟩ | ⟨-, h⟩ <;> rw [h] <;> rfl

theorem initSilent_scannerAfter (s : State) (x : Input) : InitSilent (scannerAfter s x) := by
  cases hphase : s.sc.phase with
  | direct =>
    rw [scannerAfter_of_direct x hphase]
    exact initSilent_edge s.sc _ _
  | rowOn =>
    rw [scannerAfter_of_rowOn x hphase]
    exact fun _ => scannerRowOn_evtV s.sc x.col
  | eval1 =>
    rw [scannerAfter_of_eval1 x hphase]
    exact initSilent_edge s.sc _ _
  | eval2 =>
    rw [scannerAfter_of_eval2 x hphase]
    exact initSilent_edge s.sc _ _
  | settle =>
    rw [scannerAfter_of_settle x hphase]
    exact fun _ => scannerSettle_evtV s.sc s.cfg
  | idle =>
    rw [scannerAfter_of_idle x hphase]
    exact fun _ => scannerIdle_evtV s.sc

end silent

section reset
variable (cfg : Config)

theorem muxShows_reset : MuxShows Mux.reset := muxShows_of_drain rfl

theorem muxTimed_reset : MuxTimed cfg Mux.reset := Nat.zero_lt_one

theorem scannerTimed_reset : ScannerTimed cfg Scanner.reset := Nat.zero_lt_one

theorem initSilent_reset : InitSilent Scanner.reset := fun _ => rfl

end reset

/-- Settles O54: each unit's part of the invariant holds whichever move the step makes of its registers. -/
theorem stepKeepsInvariant : Obligations.StepKeepsInvariant := by
  unfold Obligations.StepKeepsInvariant
  intro s t hinv hstep
  obtain ⟨hwf, hshows, hmux, hsc, hsilent⟩ := inv_iff.mp hinv
  have hpos := positiveTicks_of_wf hwf
  obtain ⟨hcfg, hmxMove, hscMove⟩ := moves_of_step hstep
  rw [inv_iff, hcfg]
  refine ⟨hwf, ?_, ?_, ?_, ?_⟩
  · rcases hmxMove with h | h | h <;> rw [h]
    exacts [hshows, muxShows_reset, hshows.muxAfter]
  · rcases hmxMove with h | h | h <;> rw [h]
    exacts [hmux, muxTimed_reset _, hmux.muxAfter hpos]
  · rcases hscMove with h | h | ⟨x, h⟩ | ⟨b, v, h⟩ <;> rw [h]
    exacts [hsc, scannerTimed_reset _, hsc.scannerAfter hpos x, hsc.of_eq (edge_phase _ _ _) (edge_timer _ _ _)]
  · rcases hscMove with h | h | ⟨x, h⟩ | ⟨b, v, h⟩ <;> rw [h]
    exacts [hsilent, initSilent_reset, initSilent_scannerAfter s x, initSilent_edge _ b v]

/-- Settles O55: the reset values meet each unit's part, and the defaults meet the constraints of R7. -/
theorem resetStateMeetsInvariant : Obligations.ResetStateMeetsInvariant := by
  unfold Obligations.ResetStateMeetsInvariant
  exact inv_iff.mpr ⟨by decide, muxShows_reset, muxTimed_reset _, scannerTimed_reset _, initSilent_reset⟩

end Sys2Proof.Machine
end

section
/-! SUPPORT. What one clock leaves in the registers (R12), with and without RESET; the clocks of the multiplexer outside
DRAIN, and the statements about one clock or one operation. -/

namespace Sys2Proof.Machine

open Sys2Proof

/-- What a clock with `rst = 1` leaves (R121). -/
structure ResettingClock (s t : State) : Prop where
  rst : s.input.rst = true
  ops : t.ops = []
  cfg : t.cfg = s.cfg
  slot : t.slot = Mailbox.reset
  mx : t.mx = Mux.reset
  sc : t.sc = Scanner.reset

/-- What a clock with `rst = 0` leaves: each unit stepped from this clock's state and inputs (R12). -/
structure RunningClock (s t : State) : Prop where
  rst : s.input.rst = false
  ops : t.ops = []
  cfg : t.cfg = s.cfg
  slot : t.slot = mailboxAfter s s.input
  result : t.result = resultAfter s
  mx : t.mx = muxAfter s
  sc : t.sc = scannerAfter s s.input

section clock
variable {s t : State}

theorem clock_cases (hquiet : s.ops = []) (hstep : step s = .next t) : ResettingClock s t ∨ RunningClock s t := by
  rw [step_clock hquiet] at hstep
  rcases clockStep_cases s with ⟨hrst, hclock⟩ | ⟨hrst, hclock⟩
  · cases hclock.symm.trans hstep
    exact .inl ⟨hrst, hquiet, rfl, rfl, rfl, rfl⟩
  · cases hclock.symm.trans hstep
    exact .inr ⟨hrst, hquiet, rfl, rfl, rfl, rfl, rfl⟩

theorem runningClock_of_step (hquiet : s.ops = []) (hrst : s.input.rst = false) (hstep : step s = .next t) :
    RunningClock s t := by
  rcases clock_cases hquiet hstep with hreset | hrun
  · simp [hreset.rst] at hrst
  · exact hrun

theorem exists_runningClock (hquiet : s.ops = []) (hrst : s.input.rst = false) :
    ∃ t, step s = .next t ∧ RunningClock s t :=
  ⟨_, step_running hquiet hrst, hrst, hquiet, rfl, rfl, rfl, rfl, rfl⟩

theorem clock_ops (hquiet : s.ops = []) (hstep : step s = .next t) : t.ops = [] := by
  rcases clock_cases hquiet hstep with h | h
  exacts [h.ops, h.ops]

theorem clock_cfg (hquiet : s.ops = []) (hstep : step s = .next t) : t.cfg = s.cfg := by
  rcases clock_cases hquiet hstep with h | h
  exacts [h.cfg, h.cfg]

end clock

section mux
variable {s t : State}

/-- The multiplexer's next registers depend on the display side alone. -/
theorem muxAfter_congr (hcfg : s.cfg = t.cfg) (hslot : s.slot = t.slot) (hmx : s.mx = t.mx) :
    muxAfter s = muxAfter t := by
  rw [muxAfter, hcfg, hslot, hmx, ← muxAfter]

/-- The mailbox's next value depends on the display side and the SET inputs alone. -/
theorem mailboxAfter_congr {x y : Input} (hslot : s.slot = t.slot) (hmx : s.mx = t.mx)
    (hset : x.setValid = y.setValid) (hleft : x.setLeft = y.setLeft) (hright : x.setRight = y.setRight) :
    mailboxAfter s x = mailboxAfter t y := by
  rw [mailboxAfter, hslot, hmx, hset, hleft, hright, ← mailboxAfter]

/-- The scanner's next registers depend on the keypad side and the key inputs alone. -/
theorem scannerAfter_congr {x y : Input} (hcfg : s.cfg = t.cfg) (hsc : s.sc = t.sc) (hdirect : x.direct = y.direct)
    (hcol : x.col = y.col) : scannerAfter s x = scannerAfter t y := by
  rw [scannerAfter, hcfg, hsc, hdirect, hcol, ← scannerAfter]

/-- R84, R85: only a drain changes the digits. -/
theorem muxAfter_digits_of_phase_ne (hphase : s.mx.phase ≠ .drain) : (muxAfter s).digits = s.mx.digits := by
  cases h : s.mx.phase with
  | drain => exact absurd h hphase
  | setup =>
    rw [muxAfter_of_setup h]
    rcases muxSetup_cases s.mx s.cfg with ⟨-, hm⟩ | ⟨-, hm⟩ <;> rw [hm]
  | dwell =>
    rw [muxAfter_of_dwell h]
    rcases muxDwell_cases s.mx s.cfg with ⟨-, hm⟩ | ⟨-, q, -, hm⟩ | ⟨-, -, hm⟩ <;> rw [hm]
    exact muxStrobe_digits _ _ _

/-- A clock that stays in DWELL keeps the position and the pattern. -/
theorem muxAfter_of_dwell_dwell (hphase : s.mx.phase = .dwell) (hstays : (muxAfter s).phase = .dwell) :
    (muxAfter s).pos = s.mx.pos ∧ (muxAfter s).seg = s.mx.seg := by
  rw [muxAfter_of_dwell hphase] at hstays ⊢
  rcases muxDwell_cases s.mx s.cfg with ⟨-, hm⟩ | ⟨-, q, -, hm⟩ | ⟨-, -, hm⟩ <;> rw [hm] at hstays ⊢
  · exact ⟨rfl, rfl⟩
  · simp at hstays
  · simp at hstays

end mux

/-- R29 for an enable line given by its position. -/
theorem out_en_position_iff {s : State} {p : Position} :
    s.out.en[p.val] = true ↔ s.mx.phase = .dwell ∧ s.mx.pos = p :=
  (out_en_eq_true_iff (k := p.castLE (by decide))).trans
    (and_congr_right fun _ => ⟨fun h => Fin.ext h.symm, fun h => congrArg Fin.val h.symm⟩)

/-- Settles O56: each side's next registers are a function of that side, and RESET gives both sides fixed values. -/
theorem displayAndKeypadShareNothing : Obligations.DisplayAndKeypadShareNothing := by
  unfold Obligations.DisplayAndKeypadShareNothing
  intro s s' t t' hquiet hquiet' hcfg hrst hstep hstep'
  rcases clock_cases hquiet hstep with h | h
  · rcases clock_cases hquiet' hstep' with h' | h'
    · exact ⟨fun _ _ _ _ _ => ⟨h.mx.trans h'.mx.symm, h.slot.trans h'.slot.symm⟩,
        fun _ _ _ => h.sc.trans h'.sc.symm⟩
    · simp [h.rst, h'.rst] at hrst
  · have h' := runningClock_of_step hquiet' (hrst.symm.trans h.rst) hstep'
    rw [h.mx, h.slot, h.sc, h'.mx, h'.slot, h'.sc]
    exact ⟨fun hmx hslot hset hleft hright =>
      ⟨muxAfter_congr hcfg hslot hmx, mailboxAfter_congr hslot hmx hset hleft hright⟩,
      fun hsc hdirect hcol => scannerAfter_congr hcfg hsc hdirect hcol⟩

/-- Settles O27: outside DRAIN the multiplexer keeps the digits, and a SET fills the mailbox. -/
theorem midCycleSetKeepsDigits : Obligations.MidCycleSetKeepsDigits := by
  unfold Obligations.MidCycleSetKeepsDigits
  intro s hquiet hphase hrst
  obtain ⟨t, hstep, hclock⟩ := exists_runningClock hquiet hrst
  exact ⟨t, hstep, by rw [hclock.mx, muxAfter_digits_of_phase_ne hphase],
    fun hset => hclock.slot.trans (mailboxAfter_of_set hset)⟩

/-- Settles O21: a lit or occupied position is the multiplexer's own, which is a shown one. -/
theorem skippedPositionsStayDark : Obligations.SkippedPositionsStayDark := by
  unfold Obligations.SkippedPositionsStayDark
  intro s p hinv hhidden
  have hpos : s.mx.phase ≠ .drain → s.mx.pos ≠ p := by
    rintro hphase rfl
    simp [hinv.posShown hphase] at hhidden
  refine ⟨Bool.eq_false_iff.mpr fun hhigh => ?_, hpos⟩
  obtain ⟨hphase, hp⟩ := out_en_position_iff.mp hhigh
  exact hpos (by simp [hphase]) hp

/-- Settles O23: in DWELL the latch holds the pattern of the position; a clock that stays in DWELL keeps position,
pattern and digits, and a RESET clock does not stay. -/
theorem patternStableWhileEnabled : Obligations.PatternStableWhileEnabled := by
  unfold Obligations.PatternStableWhileEnabled
  intro s p hinv hhigh
  obtain ⟨hphase, rfl⟩ := out_en_position_iff.mp hhigh
  have hne : s.mx.phase ≠ .drain := by simp [hphase]
  refine ⟨hinv.segHolds hne, fun t hquiet hstep hhigh' => ?_⟩
  obtain ⟨hphase', -⟩ := out_en_position_iff.mp hhigh'
  rcases clock_cases hquiet hstep with h | h
  · simp [h.mx] at hphase'
  · rw [h.mx] at hphase'
    obtain ⟨-, hseg⟩ := muxAfter_of_dwell_dwell hphase hphase'
    exact ⟨by rw [out_seg, out_seg, h.mx, hseg], by rw [h.mx, muxAfter_digits_of_phase_ne hne]⟩

/-- Settles O10: holding is the mailbox function without take and SET. -/
theorem slotHoldChangesNothing : Obligations.SlotHoldChangesNothing := by
  unfold Obligations.SlotHoldChangesNothing
  intro s hphase
  have hhold : s.slot.next false none = s.slot := by
    rw [mailboxNext_none, Bool.not_false, Bool.and_true]
  calc exec .slotHold s
    _ = .next { s with slot := s.slot.next false none } := whenSelected_of hphase _
    _ = .next s := by rw [hhold]

/-- Settles O17: both operations are selected and take without a SET. -/
theorem mxDrainAloneEmptiesSlot : Obligations.MxDrainAloneEmptiesSlot := by
  unfold Obligations.MxDrainAloneEmptiesSlot
  intro s hphase
  exact ⟨_, _, exec_mxDrain_of_phase_eq hphase, exec_tryTake_of_phase_eq hphase, rfl⟩

/-- Settles O49: RESET leaves nothing to take, so the drain keeps the zero digits, whose first shown position is 2; the
mailbox is pending only by a SET. -/
theorem firstCycleAfterResetShowsZeros : Obligations.FirstCycleAfterResetShowsZeros := by
  unfold Obligations.FirstCycleAfterResetShowsZeros
  intro s u hreset hquiet hrst
  cases hreset
  obtain ⟨t, hstep, hclock⟩ := exists_runningClock hquiet hrst
  have hmx : t.mx = Mux.reset.strobe s.cfg 2 := hclock.mx
  refine ⟨t, hstep, ?_, ?_, ?_, ?_⟩
  · rw [hmx, muxStrobe_digits, Mux.reset]
  · rw [hmx, muxStrobe_pos]
  · rw [hmx, muxStrobe_phase]
  · simp [hclock.slot, mailboxAfter_pending]

end Sys2Proof.Machine
end

section
/-! SUPPORT. Runs of clocks taken apart and gone through, and what they leave in the mailbox (R41, R77). -/

namespace Sys2Proof.Machine

open Sys2Proof

section runs
variable {s t : State} {visited : List State}

/-- What holds at the start of a run and is kept by each of its clocks holds at every state of it. -/
theorem Clocks.keeps {P : State → Prop} (hrun : Clocks s visited t) (hs : P s)
    (hkeeps : ∀ u ∈ visited, ∀ w, u.ops = [] → step u = .next w → P u → P w) : (∀ u ∈ visited, P u) ∧ P t := by
  induction hrun with
  | nil s => exact ⟨by simp, hs⟩
  | @cons s u t visited hquiet hstep hrest ih =>
    have hu : P u := hkeeps s List.mem_cons_self u hquiet hstep hs
    obtain ⟨hvisited, ht⟩ := ih hu fun w hw => hkeeps w (List.mem_cons_of_mem s hw)
    exact ⟨List.forall_mem_cons.mpr ⟨hs, hvisited⟩, ht⟩

/-- A run divided at one of its clocks. -/
theorem Clocks.split {before later : List State} {u : State} (hrun : Clocks s (before ++ u :: later) t) :
    u.ops = [] ∧ ∃ w, step u = .next w ∧ Clocks w later t := by
  induction before generalizing s with
  | nil =>
    cases hrun with
    | cons hquiet hstep hrest => exact ⟨hquiet, _, hstep, hrest⟩
  | cons _ before ih =>
    cases hrun with
    | cons hquiet hstep hrest => exact ih hrest

theorem Clocks.ops_of_mem {u : State} (hrun : Clocks s visited t) (hu : u ∈ visited) : u.ops = [] := by
  obtain ⟨before, later, rfl⟩ := List.append_of_mem hu
  obtain ⟨hquiet, -⟩ := hrun.split
  exact hquiet

end runs

/-- A clock that leaves the mailbox alone: no SET, no take, no RESET. -/
def HoldsSlot (s : State) : Prop := (∀ v, ¬SetsIn s v) ∧ ¬TakesIn s ∧ s.input.rst = false

section slot
variable {s t : State} {v : DisplayValue}

/-- The value a take returns, in terms of the slot. -/
theorem mailboxTaken_eq_some_iff {m : Mailbox} : m.taken = some v ↔ m = ⟨true, v.left, v.right⟩ := by
  rcases m with ⟨pending, left, right⟩
  rcases v with ⟨vleft, vright⟩
  cases pending <;> simp [Mailbox.taken]

theorem mailboxTaken_of_not_pending {m : Mailbox} (hempty : m.pending = false) : m.taken = none := by
  rw [mailboxTaken_eq, hempty, if_neg Bool.false_ne_true]

theorem setValid_eq_false_of_not_setsIn (hrst : s.input.rst = false) (hnone : ∀ v, ¬SetsIn s v) :
    s.input.setValid = false :=
  Bool.eq_false_iff.mpr fun hvalid => hnone _ ⟨hrst, hvalid, rfl⟩

/-- R72: after a SET its value is pending. -/
theorem slot_of_setsIn (hquiet : s.ops = []) (hstep : step s = .next t) (hset : SetsIn s v) :
    t.slot = ⟨true, v.left, v.right⟩ := by
  obtain ⟨hrst, hvalid, rfl⟩ := hset
  exact (runningClock_of_step hquiet hrst hstep).slot.trans (mailboxAfter_of_set hvalid)

/-- R72: without SET, take and RESET the mailbox stays. -/
theorem slot_of_holdsSlot (hquiet : s.ops = []) (hstep : step s = .next t) (hholds : HoldsSlot s) :
    t.slot = s.slot := by
  obtain ⟨hnone, htake, hrst⟩ := hholds
  have hphase : s.mx.phase ≠ .drain := fun hphase => htake ⟨hrst, hphase⟩
  rw [(runningClock_of_step hquiet hrst hstep).slot,
    mailboxAfter_of_not_set (setValid_eq_false_of_not_setsIn hrst hnone), decide_eq_true hphase, Bool.and_true]

/-- R72: a clock sets, holds, or leaves the mailbox empty. -/
theorem setsIn_or_holdsSlot_or_not_pending (hquiet : s.ops = []) (hstep : step s = .next t) :
    (∃ v, SetsIn s v) ∨ HoldsSlot s ∨ t.slot.pending = false := by
  rcases clock_cases hquiet hstep with h | h
  · exact .inr (.inr (by rw [h.slot, mailboxReset_pending]))
  · by_cases hset : ∃ v, SetsIn s v
    · exact .inl hset
    · rw [not_exists] at hset
      by_cases hphase : s.mx.phase = .drain
      · have hvalid := setValid_eq_false_of_not_setsIn h.rst hset
        exact .inr (.inr (by simp [h.slot, mailboxAfter_pending, hvalid, hphase]))
      · exact .inr (.inl ⟨hset, fun htake => hphase htake.2, h.rst⟩)

/-- R77: over clocks that hold it, the mailbox stays. -/
theorem Clocks.slot_of_forall_holdsSlot {visited : List State} (hrun : Clocks s visited t)
    (hholds : ∀ u ∈ visited, HoldsSlot u) : t.slot = s.slot := by
  obtain ⟨-, hslot⟩ := hrun.keeps (P := fun u => u.slot = s.slot) rfl fun u hu w hquiet hstep hslot =>
    (slot_of_holdsSlot hquiet hstep (hholds u hu)).trans hslot
  exact hslot

/-- R77: a SET followed by clocks that hold the mailbox is pending at the end. -/
theorem Clocks.slot_of_last_set {before later : List State} {u : State} (hrun : Clocks s (before ++ u :: later) t)
    (hset : SetsIn u v) (hholds : ∀ w ∈ later, HoldsSlot w) : t.slot = ⟨true, v.left, v.right⟩ := by
  obtain ⟨hquiet, w, hstep, hlater⟩ := hrun.split
  exact (hlater.slot_of_forall_holdsSlot hholds).trans (slot_of_setsIn hquiet hstep hset)

/-- R41: a pending value was set in the run and held since, or was pending at the start and held throughout. -/
theorem Clocks.last_set_of_taken {visited : List State} (hrun : Clocks s visited t) (htaken : t.slot.taken = some v) :
    (∃ before u later, visited = before ++ u :: later ∧ SetsIn u v ∧ ∀ w ∈ later, HoldsSlot w) ∨
      s.slot.taken = some v ∧ ∀ w ∈ visited, HoldsSlot w := by
  induction hrun with
  | nil s => exact .inr ⟨htaken, by simp⟩
  | @cons s u t visited hquiet hstep hrest ih =>
    rcases ih htaken with ⟨before, w, later, rfl, hset, hholds⟩ | ⟨hu, hholds⟩
    · exact .inl ⟨s :: before, w, later, rfl, hset, hholds⟩
    · rcases setsIn_or_holdsSlot_or_not_pending hquiet hstep with ⟨v', hset⟩ | hhold | hempty
      · have htaken' : u.slot.taken = some v' := mailboxTaken_eq_some_iff.mpr (slot_of_setsIn hquiet hstep hset)
        obtain rfl : v' = v := Option.some.inj (htaken'.symm.trans hu)
        exact .inl ⟨[], s, visited, rfl, hset, hholds⟩
      · rw [slot_of_holdsSlot hquiet hstep hhold] at hu
        exact .inr ⟨hu, List.forall_mem_cons.mpr ⟨hhold, hholds⟩⟩
      · simp [mailboxTaken_of_not_pending hempty] at hu

end slot

/-- Settles O12: outside DRAIN and RESET a clock without a SET holds the mailbox; a take leaves nothing to a second
one. -/
theorem mailboxCoalescesToLastSet : Obligations.MailboxCoalescesToLastSet := by
  unfold Obligations.MailboxCoalescesToLastSet
  intro s t visited hrun hquietRun
  have hholds : ∀ u ∈ visited, (∀ v, ¬SetsIn u v) → HoldsSlot u := by
    intro u hu hnone
    obtain ⟨hphase, hrst⟩ := hquietRun u hu
    exact ⟨hnone, fun htake => hphase htake.2, hrst⟩
  refine ⟨fun hnone => hrun.slot_of_forall_holdsSlot fun u hu => hholds u hu (hnone u hu), ?_, fun hphase => ?_⟩
  · rintro before u later v rfl hset hnone
    exact hrun.slot_of_last_set hset fun w hw => hholds w (by simp [hw]) (hnone w hw)
  · exact ⟨_, _, exec_tryTake_of_phase_eq hphase, by rw [mailboxTaken_eq], exec_tryTake_of_phase_eq hphase,
      congrArg OpResult.taken (mailboxTaken_of_not_pending (Bool.and_false _))⟩

/-- Settles O13: from an empty slot the pending value of the take's clock is that of the last SET held since. -/
theorem takeSeesMostRecentEarlierSet : Obligations.TakeSeesMostRecentEarlierSet := by
  unfold Obligations.TakeSeesMostRecentEarlierSet
  rintro s t visited hempty hrun hquiet ⟨hrst, hphase⟩
  obtain ⟨t', hstep, hclock⟩ := exists_runningClock hquiet hrst
  refine ⟨t', hstep, fun v => ?_, fun v hset => slot_of_setsIn hquiet hstep hset⟩
  rw [hclock.result, resultAfter_of_phase_eq hphase, OpResult.taken.injEq]
  constructor
  · intro htaken
    rcases hrun.last_set_of_taken htaken with hlast | ⟨hstart, -⟩
    · exact hlast
    · simp [mailboxTaken_of_not_pending hempty] at hstart
  · rintro ⟨before, u, later, rfl, hset, hholds⟩
    exact mailboxTaken_eq_some_iff.mpr (hrun.slot_of_last_set hset hholds)

end Sys2Proof.Machine
end

section
/-! SUPPORT. The decimal digits of a value as one formula (R65), the patterns as numbers (R69), and what the display
shows over a run of clocks (R88, R89). -/

namespace Sys2Proof.Machine

open Sys2Proof

/-- R69: the pattern of a digit is its number in binary. -/
@[simp] theorem encodeDigit_toNat (d : Digit) : (encodeDigit d).toNat = d.val := by
  revert d
  decide

/-- Settles O4. -/
theorem encodedPatternEqualsDigit : Obligations.EncodedPatternEqualsDigit := by
  unfold Obligations.EncodedPatternEqualsDigit
  exact fun d s => ⟨exec_encode_digit d s, encodeDigit_toNat d⟩

/-- R64, R65: in every branch the digits are the decimal digits of the saturated value. -/
theorem decomposeValue_val (v : Value) :
    (decomposeValue v).thousands.val = min v.toNat 9999 / 1000 % 10 ∧
      (decomposeValue v).hundreds.val = min v.toNat 9999 / 100 % 10 ∧
      (decomposeValue v).tens.val = min v.toNat 9999 / 10 % 10 ∧
      (decomposeValue v).ones.val = min v.toNat 9999 % 10 := by
  rcases Nat.eq_zero_or_pos v.toNat with hzero | hpos
  · simp [decomposeValue_of_eq_zero hzero, hzero]
  · rcases Nat.lt_or_ge v.toNat 9999 with hsmall | hlarge
    · obtain ⟨hthousands, hhundreds, htens, hones⟩ := decomposeValue_val_of_lt hpos hsmall
      rw [min_eq_left hsmall.le]
      exact ⟨by omega, hhundreds, htens, hones⟩
    · rw [decomposeValue_of_le hlarge, min_eq_right hlarge]
      decide

/-- Settles O2: the four digits of a number up to 9999 make it up, and the leading ones are 0 below 1000 and 100. -/
theorem decomposeReconstructsBelowSaturation : Obligations.DecomposeReconstructsBelowSaturation := by
  unfold Obligations.DecomposeReconstructsBelowSaturation
  intro v
  obtain ⟨hthousands, hhundreds, htens, hones⟩ := decomposeValue_val v
  refine ⟨decomposeValue v, exec_decompose v, ?_, ?_, ?_⟩
  · rw [reconstruct]
    omega
  · rw [Fin.ext_iff, Fin.val_zero]
    omega
  · rw [Fin.ext_iff, Fin.ext_iff, Fin.val_zero]
    omega

section positions
variable (left right : Value) {p : Position}

/-- R52: the positions below 4 hold the decimal digits of the left value. -/
theorem digit_decomposed_left (hp : p.val < 4) :
    (DigitFile.digit ⟨decomposeValue left, decomposeValue right⟩ p).val =
      min left.toNat 9999 / 10 ^ (3 - p.val) % 10 := by
  obtain ⟨hthousands, hhundreds, htens, hones⟩ := decomposeValue_val left
  have hbank : ∀ p : Position, p.val < 4 → p = 0 ∨ p = 1 ∨ p = 2 ∨ p = 3 := by decide
  rcases hbank p hp with rfl | rfl | rfl | rfl
  · exact hthousands
  · exact hhundreds
  · exact htens
  · exact hones.trans (congrArg (· % 10) (Nat.div_one _).symm)

/-- R52: the positions from 4 on hold the decimal digits of the right value. -/
theorem digit_decomposed_right (hp : 4 ≤ p.val) :
    (DigitFile.digit ⟨decomposeValue left, decomposeValue right⟩ p).val =
      min right.toNat 9999 / 10 ^ (7 - p.val) % 10 := by
  obtain ⟨hthousands, hhundreds, htens, hones⟩ := decomposeValue_val right
  have hbank : ∀ p : Position, 4 ≤ p.val → p = 4 ∨ p = 5 ∨ p = 6 ∨ p = 7 := by decide
  rcases hbank p hp with rfl | rfl | rfl | rfl
  · exact hthousands
  · exact hhundreds
  · exact htens
  · exact hones.trans (congrArg (· % 10) (Nat.div_one _).symm)

end positions

section display
variable {s t : State} {visited : List State}

/-- R82, R88: every clock keeps what the multiplexer shows. -/
theorem MuxShows.clock (h : MuxShows s.mx) (hquiet : s.ops = []) (hstep : step s = .next t) : MuxShows t.mx := by
  rcases clock_cases hquiet hstep with hclock | hclock <;> rw [hclock.mx]
  · exact muxShows_reset
  · exact h.muxAfter

/-- R82, R88: a high enable line is that of a shown position, with its pattern on the lines. -/
theorem MuxShows.of_en {p : Position} (h : MuxShows s.mx) (hhigh : s.out.en[p.val] = true) :
    s.mx.digits.shown p = true ∧ s.out.seg = encodeDigit (s.mx.digits.digit p) := by
  obtain ⟨hphase, rfl⟩ := out_en_position_iff.mp hhigh
  have hne : s.mx.phase ≠ .drain := by simp [hphase]
  exact ⟨h.posShown hne, h.segHolds hne⟩

/-- R83: a clock in DRAIN loads the digits of the taken value, or keeps the digits. -/
theorem muxAfter_digits_of_drain (hphase : s.mx.phase = .drain) :
    (muxAfter s).digits = s.mx.digits.drained s.slot.taken := by
  rw [muxAfter_of_drain hphase, Mux.drain, muxStrobe_digits]

/-- Over a run of clocks without drain and RESET the digits stay. -/
theorem Clocks.digits_of_no_drain (hrun : Clocks s visited t)
    (hquietRun : ∀ u ∈ visited, u.mx.phase ≠ .drain ∧ u.input.rst = false) : t.mx.digits = s.mx.digits := by
  obtain ⟨-, hdigits⟩ := hrun.keeps (P := fun u => u.mx.digits = s.mx.digits) rfl
    fun u hu w hquiet hstep hdigits => by
    obtain ⟨hphase, hrst⟩ := hquietRun u hu
    rw [(runningClock_of_step hquiet hrst hstep).mx, muxAfter_digits_of_phase_ne hphase, hdigits]
  exact hdigits

/-- Over a run of clocks the multiplexer keeps showing the pattern of its position. -/
theorem Clocks.muxShows (hrun : Clocks s visited t) (h : MuxShows s.mx) : MuxShows t.mx := by
  obtain ⟨-, ht⟩ := hrun.keeps (P := fun u => MuxShows u.mx) h fun _ _ _ hquiet hstep hu => hu.clock hquiet hstep
  exact ht

end display

/-- Settles O26: the drain loads the decimal digits of both fields, the run keeps them, and a high line shows its
own. -/
theorem drainedValueIsDisplayedDecimally : Obligations.DrainedValueIsDisplayedDecimally := by
  unfold Obligations.DrainedValueIsDisplayedDecimally
  intro s u t visited hquiet hphase hrst hpending hstep hrun hquietRun p hhigh
  have hclock := runningClock_of_step hquiet hrst hstep
  have hdigits : t.mx.digits = ⟨decomposeValue s.slot.left, decomposeValue s.slot.right⟩ := by
    rw [hrun.digits_of_no_drain hquietRun, hclock.mx, muxAfter_digits_of_drain hphase, drained_taken, if_pos hpending]
  have hu : MuxShows u.mx := by
    rw [hclock.mx, muxAfter_of_drain hphase]
    exact muxShows_drain s.cfg s.slot.taken
  obtain ⟨-, hseg⟩ := (hrun.muxShows hu).of_en hhigh
  rw [hseg, encodeDigit_toNat, hdigits]
  exact ⟨digit_decomposed_left _ _, digit_decomposed_right _ _⟩

section unwritten
variable {s t : State}

/-- R89: the registers of a display that was never written: zero digits, nothing to take. -/
structure Unwritten (s : State) : Prop where
  digits : s.mx.digits = Mux.reset.digits
  empty : s.slot.pending = false

/-- R89: a clock without a SET leaves a never written display so, RESET or not. -/
theorem Unwritten.clock (h : Unwritten s) (hquiet : s.ops = []) (hstep : step s = .next t)
    (hset : s.input.setValid = false) : Unwritten t := by
  rcases clock_cases hquiet hstep with hclock | hclock
  · exact ⟨by rw [hclock.mx], by rw [hclock.slot, mailboxReset_pending]⟩
  · refine ⟨?_, by simp [hclock.slot, mailboxAfter_pending, hset, h.empty]⟩
    rw [hclock.mx]
    by_cases hphase : s.mx.phase = .drain
    · rw [muxAfter_digits_of_drain hphase, mailboxTaken_of_not_pending h.empty]
      exact h.digits
    · rw [muxAfter_digits_of_phase_ne hphase, h.digits]

/-- R80: of zero digits only the tens and ones are shown. -/
theorem shown_zeros : ∀ p : Position, Mux.reset.digits.shown p = true →
    (p.val = 2 ∨ p.val = 3 ∨ p.val = 6 ∨ p.val = 7) ∧ encodeDigit (Mux.reset.digits.digit p) = 0b0000 := by
  decide

end unwritten

/-- Settles O25: the run keeps the display unwritten, and a high line is that of a shown position of zero digits. -/
theorem neverWrittenMailboxStrobesZeros : Obligations.NeverWrittenMailboxStrobesZeros := by
  unfold Obligations.NeverWrittenMailboxStrobesZeros
  intro s t visited hmx hempty hrun hnone
  have hstart : Unwritten s := ⟨by rw [hmx], hempty⟩
  obtain ⟨-, hend⟩ := hrun.keeps hstart fun u hu w hquiet hstep h => h.clock hquiet hstep (hnone u hu)
  have hshows : MuxShows t.mx := hrun.muxShows (hmx ▸ muxShows_reset)
  refine ⟨hend.digits, fun k hhigh => ?_⟩
  have hpos : k.val = t.mx.pos.val := (out_en_eq_true_iff.mp hhigh).2
  obtain ⟨hshown, hseg⟩ := hshows.of_en (p := t.mx.pos) (by simpa [hpos] using hhigh)
  rw [hend.digits] at hshown hseg
  obtain ⟨hfour, hpattern⟩ := shown_zeros _ hshown
  exact ⟨by rwa [hpos], hseg.trans hpattern⟩

end Sys2Proof.Machine
end

section
/-! SUPPORT. The samples that a clock hands to the edge detector, and what they make of the buttons and the event
(R91 to R96, R102, R103). -/

namespace Sys2Proof.Machine

open Sys2Proof

/-- How samples drive the button-state file and the event registers (R91, R92): a sampled button takes its sample, and
an event is presented exactly for a changed sample after the initialising cycle. -/
structure Sampled (sc sc' : Scanner) (sample : ButtonId → Option Bool) : Prop where
  btn : ∀ b : ButtonId, sc'.btn[b] = (sample b).getD sc.btn[b]
  event : sc'.evtV = true ↔ sc.init = false ∧ ∃ b v, sample b = some v ∧ v ≠ sc.btn[b]
  named : sc'.evtV = true → sample sc'.evtB = some sc'.evtP ∧ sc'.evtP ≠ sc.btn[sc'.evtB]

section sampled
variable {sc sc' : Scanner}

theorem setBtn_getElem (sc : Scanner) (b c : ButtonId) (v : Bool) :
    (sc.setBtn b v).btn[c] = if c = b then v else sc.btn[c] := by
  simp [Vector.getElem_set, Fin.ext_iff, eq_comm]

/-- EDGE is the sample of one button (R91). -/
theorem sampled_edge {b : ButtonId} {v : Bool} {sample : ButtonId → Option Bool}
    (hsample : ∀ c, sample c = if c = b then some v else none) : Sampled sc (sc.edge b v) sample := by
  have hb : sample b = some v := (hsample b).trans (if_pos rfl)
  have hother : ∀ c, c ≠ b → sample c = none := fun c hc => (hsample c).trans (if_neg hc)
  have hset : ∀ c : ButtonId, (sc.setBtn b v).btn[c] = (sample c).getD sc.btn[c] := by
    intro c
    rw [setBtn_getElem, hsample]
    split <;> rfl
  rcases edge_cases sc b v with ⟨hinit, h⟩ | ⟨hinit, hchange, h⟩ | ⟨hinit, hsame, h⟩ <;> rw [h]
  · exact ⟨hset, by simp [hinit], by simp⟩
  · exact ⟨hset, ⟨fun _ => ⟨hinit, b, v, hb, hchange⟩, fun _ => rfl⟩, fun _ => ⟨hb, hchange⟩⟩
  · have hunchanged : ∀ c w, sample c = some w → w = sc.btn[c] := by
      intro c w hw
      by_cases hc : c = b
      · subst hc
        exact (Option.some.inj (hw.symm.trans hb)).trans hsame
      · simp [hother c hc] at hw
    refine ⟨fun c => ?_, ⟨fun hevent => ?_, fun ⟨_, c, w, hw, hchange⟩ => absurd (hunchanged c w hw) hchange⟩, ?_⟩
    · cases hc : sample c with
      | none => rfl
      | some w => exact (hunchanged c w hc).symm
    · simp at hevent
    · simp

/-- A step without a sample keeps the buttons and presents no event. -/
theorem sampled_none {sample : ButtonId → Option Bool} (hsample : ∀ c, sample c = none) (hbtn : sc'.btn = sc.btn)
    (hsilent : sc'.evtV = false) : Sampled sc sc' sample :=
  ⟨fun c => by simp [hsample, hbtn], by simp [hsample, hsilent], by simp [hsilent]⟩

/-- The sequencer of the scanner has no part in a sample. -/
theorem Sampled.of_eq {sample : ButtonId → Option Bool} {sc'' : Scanner} (h : Sampled sc sc' sample)
    (hbtn : sc''.btn = sc'.btn) (hevtV : sc''.evtV = sc'.evtV) (hevtB : sc''.evtB = sc'.evtB)
    (hevtP : sc''.evtP = sc'.evtP) : Sampled sc sc'' sample := by
  rcases sc'' with ⟨_, _, _, _, _, _, _, _, _⟩
  subst hbtn hevtV hevtB hevtP
  exact ⟨h.btn, h.event, h.named⟩

theorem scannerRowOn_btn (sc : Scanner) (col : Columns) : (sc.rowOn col).btn = sc.btn := by
  rcases scannerRowOn_cases sc col with ⟨-, h⟩ | ⟨-, h⟩ <;> rw [h, noEvent_btn]

theorem scannerSettle_btn (sc : Scanner) (cfg : Config) : (sc.settle cfg).btn = sc.btn := by
  rcases scannerSettle_cases sc cfg with ⟨-, h⟩ | ⟨-, r, -, -, h⟩ | ⟨-, -, -, h⟩ | ⟨-, -, -, h⟩ <;>
    simp [h]

theorem scannerIdle_btn (sc : Scanner) : sc.idle.btn = sc.btn := by
  rcases scannerIdle_cases sc with ⟨-, h⟩ | ⟨-, h⟩ <;> rw [h, noEvent_btn]

end sampled

/-- R93 to R98: the scanner step of each phase samples as `sampleOf` says. -/
theorem sampled_scannerAfter (s : State) : Sampled s.sc (scannerAfter s s.input) (sampleOf s) := by
  cases hphase : s.sc.phase with
  | direct =>
    rw [scannerAfter_of_direct _ hphase]
    exact (sampled_edge fun b => by simp only [sampleOf, hphase]).of_eq rfl rfl rfl rfl
  | rowOn =>
    rw [scannerAfter_of_rowOn _ hphase]
    exact sampled_none (fun b => by simp only [sampleOf, hphase]) (scannerRowOn_btn _ _) (scannerRowOn_evtV _ _)
  | eval1 =>
    rw [scannerAfter_of_eval1 _ hphase]
    exact (sampled_edge fun b => by simp only [sampleOf, hphase]).of_eq rfl rfl rfl rfl
  | eval2 =>
    rw [scannerAfter_of_eval2 _ hphase]
    exact (sampled_edge fun b => by simp only [sampleOf, hphase]).of_eq rfl rfl rfl rfl
  | settle =>
    rw [scannerAfter_of_settle _ hphase]
    exact sampled_none (fun b => by simp only [sampleOf, hphase]) (scannerSettle_btn _ _) (scannerSettle_evtV _ _)
  | idle =>
    rw [scannerAfter_of_idle _ hphase]
    exact sampled_none (fun b => by simp only [sampleOf, hphase]) (scannerIdle_btn _) (scannerIdle_evtV _)

section runs
variable {s t : State}

theorem sampled_of_step (hquiet : s.ops = []) (hrst : s.input.rst = false) (hstep : step s = .next t) :
    Sampled s.sc t.sc (sampleOf s) := by
  rw [(runningClock_of_step hquiet hrst hstep).sc]
  exact sampled_scannerAfter s

/-- A clock that presents no event, in terms of the next state. -/
theorem exists_silent_step (hquiet : s.ops = []) (hrst : s.input.rst = false)
    (hsilent : ¬(s.sc.init = false ∧ ∃ b v, sampleOf s b = some v ∧ v ≠ s.sc.btn[b])) :
    ∃ t, step s = .next t ∧ t.out.evtValid = false := by
  obtain ⟨t, hstep, -⟩ := exists_runningClock hquiet hrst
  refine ⟨t, hstep, Bool.eq_false_iff.mpr fun hevent => hsilent ?_⟩
  exact (sampled_of_step hquiet hrst hstep).event.mp hevent

end runs

/-- Settles O38: the scanner step of the clock is driven by the samples. -/
theorem samplesDriveButtonsAndEvents : Obligations.SamplesDriveButtonsAndEvents := by
  unfold Obligations.SamplesDriveButtonsAndEvents
  intro s hquiet hrst
  obtain ⟨t, hstep, -⟩ := exists_runningClock hquiet hrst
  obtain ⟨hbtn, hevent, hnamed⟩ := sampled_of_step hquiet hrst hstep
  exact ⟨t, hstep, hbtn, hevent, hnamed⟩

/-- Settles O39: an event needs the initialising cycle to be over; after its last sample a register is kept by every
clock that does not sample it. -/
theorem firstCycleInitialisesSilently : Obligations.FirstCycleInitialisesSilently := by
  unfold Obligations.FirstCycleInitialisesSilently
  intro s t visited hrun hrst
  refine ⟨fun _ u hu hinit => ?_, ?_⟩
  · exact exists_silent_step (hrun.ops_of_mem hu) (hrst u hu) (by simp [hinit])
  · rintro b v before later u rfl hsample hnone
    obtain ⟨hquiet, w, hstep, hlater⟩ := hrun.split
    have hw : w.sc.btn[b] = v := by
      rw [(sampled_of_step hquiet (hrst u (by simp)) hstep).btn b, hsample, Option.getD_some]
    obtain ⟨-, ht⟩ := hlater.keeps (P := fun w => w.sc.btn[b] = v) hw fun u' hu' w' hquiet' hstep' hbtn => by
      rw [(sampled_of_step hquiet' (hrst u' (by simp [hu'])) hstep').btn b, hnone u' hu', Option.getD_none, hbtn]
    exact ht

/-- Settles O40: as long as the registers are those of the start, every sample equals its register, which keeps the
registers and presents no event. -/
theorem unchangedSamplesEmitNothing : Obligations.UnchangedSamplesEmitNothing := by
  unfold Obligations.UnchangedSamplesEmitNothing
  intro s t visited hrun hrst hsame
  obtain ⟨hvisited, ht⟩ := hrun.keeps (P := fun u => u.sc.btn = s.sc.btn) rfl fun u hu w hquiet hstep hbtn => by
    refine Vector.ext fun k hk => ?_
    have hw := (sampled_of_step hquiet (hrst u hu) hstep).btn ⟨k, hk⟩
    cases hsample : sampleOf u ⟨k, hk⟩ with
    | none => simpa [hsample, hbtn] using hw
    | some v => simpa [hsample, hsame u hu _ v hsample] using hw
  refine ⟨ht, fun u hu => exists_silent_step (hrun.ops_of_mem hu) (hrst u hu) ?_⟩
  rintro ⟨-, b, v, hsample, hchange⟩
  rw [hvisited u hu] at hchange
  exact hchange (hsame u hu b v hsample)

end Sys2Proof.Machine
end

section
/-! SUPPORT. Countdowns over runs of clocks: the dark gap between two strobes (R87) and the length of a refresh cycle
(R86). -/

namespace Sys2Proof.Machine

open Sys2Proof

/-- No RESET in the first `n` clocks from `s`. -/
def QuietFor (n : Nat) (s : State) : Prop :=
  ∀ k v, k < n → Host.Core.run core k s = .next v → v.input.rst = false

section countdown
variable {s t : State} {k n : Nat}

theorem QuietFor.rst (h : QuietFor (n + 1) s) : s.input.rst = false := h 0 s n.succ_pos rfl

theorem QuietFor.step (h : QuietFor (n + 1) s) (hstep : step s = .next t) : QuietFor n t :=
  fun k v hk hrun => h (k + 1) v (Nat.succ_lt_succ hk) ((run_succ_of_step_eq_next hstep k).trans hrun)

/-- What every clock counts down by one is down by `k` after `k` clocks. -/
theorem exists_run_of_countdown {P : Nat → State → Prop}
    (hcount : ∀ n s t, s.ops = [] → step s = .next t → P (n + 1) s → P n t) (hquiet : s.ops = []) (h : P (n + k) s) :
    ∃ v, Host.Core.run core k s = .next v ∧ v.ops = [] ∧ P n v := by
  induction k generalizing s with
  | zero => exact ⟨s, rfl, hquiet, h⟩
  | succ k ih =>
    obtain ⟨t, hstep, htquiet, -⟩ := exists_step_eq_next_of_ops_eq_nil hquiet
    obtain ⟨v, hrun, hv⟩ := ih htquiet (hcount (n + k) s t hquiet hstep h)
    exact ⟨v, (run_succ_of_step_eq_next hstep k).trans hrun, hv⟩

/-- The same in clocks without RESET. -/
theorem exists_run_of_quiet_countdown {P : Nat → State → Prop}
    (hcount : ∀ n s t, RunningClock s t → P (n + 1) s → P n t) (hquiet : s.ops = []) (hrst : QuietFor (n + k) s)
    (h : P (n + k) s) : ∃ v, Host.Core.run core k s = .next v ∧ v.ops = [] ∧ P n v := by
  obtain ⟨v, hrun, hvquiet, -, hv⟩ := exists_run_of_countdown (P := fun n s => QuietFor n s ∧ P n s)
    (fun n s t hquiet hstep ⟨hrst, h⟩ =>
      ⟨hrst.step hstep, hcount n s t (runningClock_of_step hquiet hrst.rst hstep) h⟩) hquiet ⟨hrst, h⟩
  exact ⟨v, hrun, hvquiet, hv⟩

end countdown

/-- Every enable is low in the next `n` clocks, whatever the inputs: a RESET starts over with a drain, so `n` is at most
the length of a drain and a setup. -/
def DarkFor (n : Nat) (s : State) : Prop :=
  n ≤ s.cfg.setupTicks + 1 ∧ (0 < n → s.mx.phase = .drain ∨ s.mx.phase = .setup ∧ n ≤ s.mx.timer + 1)

section dark
variable {s t : State} {n : Nat}

theorem DarkFor.en (h : DarkFor n s) (hn : 0 < n) (j : EnableLine) : s.out.en[j] = false := by
  obtain ⟨-, hphase⟩ := h
  apply out_en_eq_false_of_phase_ne
  rcases hphase hn with hphase | ⟨hphase, -⟩ <;> simp [hphase]

theorem darkFor_of_drain (hphase : s.mx.phase = .drain) (hn : n ≤ s.cfg.setupTicks + 1) : DarkFor n s :=
  ⟨hn, fun _ => .inl hphase⟩

/-- A strobe begins with SETUP_TICKS clocks of darkness. -/
theorem darkFor_of_strobe {m : Mux} {p : Position} (hmx : s.mx = m.strobe s.cfg p) (hn : n ≤ s.cfg.setupTicks) :
    DarkFor n s := by
  refine ⟨Nat.le_succ_of_le hn, fun hpos => .inr ?_⟩
  rw [hmx, muxStrobe_phase, muxStrobe_timer]
  exact ⟨rfl, by omega⟩

/-- R87: one clock of the darkness passes, with and without RESET. -/
theorem DarkFor.clock (h : DarkFor (n + 1) s) (hquiet : s.ops = []) (hstep : step s = .next t) : DarkFor n t := by
  obtain ⟨hn, hphase⟩ := h
  have hcfg := clock_cfg hquiet hstep
  rcases clock_cases hquiet hstep with hclock | hclock
  · exact darkFor_of_drain (by rw [hclock.mx, muxReset_phase]) (by rw [hcfg]; omega)
  · rcases hphase n.succ_pos with hphase | ⟨hphase, htimer⟩
    · exact darkFor_of_strobe (by rw [hclock.mx, muxAfter_of_drain hphase, hcfg, Mux.drain]) (by rw [hcfg]; omega)
    · refine ⟨by rw [hcfg]; omega, fun hpos => .inr ?_⟩
      rw [hclock.mx, muxAfter_of_setup hphase, muxSetup_of_timer_pos (by omega)]
      exact ⟨hphase, by dsimp only; omega⟩

end dark

/-- Settles O22: a strobe ends into a SETUP or a drain, from where the darkness is counted down. -/
theorem enablesBreakBeforeMake : Obligations.EnablesBreakBeforeMake := by
  unfold Obligations.EnablesBreakBeforeMake
  refine ⟨fun _ _ _ => out_en_unique, fun s u hquiet hphase hstep hfell k hk => ?_⟩
  have hcfg := clock_cfg hquiet hstep
  have hdark : DarkFor (1 + k) u := by
    rcases clock_cases hquiet hstep with hclock | hclock
    · exact darkFor_of_drain (by rw [hclock.mx, muxReset_phase]) (by rw [hcfg]; omega)
    · have hmx := hclock.mx.trans (muxAfter_of_dwell hphase)
      rcases muxDwell_cases s.mx s.cfg with ⟨-, hm⟩ | ⟨-, q, -, hm⟩ | ⟨-, -, hm⟩ <;> rw [hm] at hmx
      · exact absurd (by rw [hmx]; exact hphase) hfell
      · have hsetup : u.mx.phase ≠ .drain := by simp [hmx]
        have hlt : k < s.cfg.setupTicks := hk.resolve_right fun h => hsetup h.1
        exact darkFor_of_strobe (by rw [hmx, hcfg]) (by rw [hcfg]; omega)
      · exact darkFor_of_drain (by rw [hmx]) (by rw [hcfg]; omega)
  obtain ⟨v, hrun, -, hv⟩ := exists_run_of_countdown (P := DarkFor)
    (fun _ _ _ hquiet hstep h => h.clock hquiet hstep) (clock_ops hquiet hstep) hdark
  exact ⟨v, hrun, hv.en Nat.zero_lt_one⟩

/-- The shown positions of a digit file. -/
def shownPositions (d : DigitFile) : Finset Position := Finset.univ.filter fun p => d.shown p = true

/-- How many shown positions a refresh cycle has still to strobe after position `p`. -/
def shownAbove (d : DigitFile) (p : Position) : Nat := ((shownPositions d).filter (p < ·)).card

section count
variable {d : DigitFile} {p q : Position}

@[simp] theorem mem_shownPositions : p ∈ shownPositions d ↔ d.shown p = true := by
  simp [shownPositions]

/-- R86: `N(D)` counts the shown positions. -/
theorem shownCount_eq_card (d : DigitFile) : shownCount d = (shownPositions d).card := by
  have hnodup : (allPositions.filter fun p => d.shown p).Nodup := List.Nodup.filter _ (by decide)
  have hset : (allPositions.filter fun p => d.shown p).toFinset = shownPositions d := by
    ext p
    have hall : p ∈ allPositions := by decide +revert
    simp [hall]
  rw [shownCount, ← hset, List.toFinset_card_of_nodup hnodup]

/-- A set of positions is its least one and those above it. -/
theorem card_eq_card_filter_lt_add_one {A : Finset Position} (hq : q ∈ A) (hleast : ∀ r ∈ A, q ≤ r) :
    A.card = (A.filter (q < ·)).card + 1 := by
  have herase : A.filter (q < ·) = A.erase q := by
    ext r
    rw [Finset.mem_filter, Finset.mem_erase, and_comm]
    exact and_congr_left fun hr => ⟨ne_of_gt, (hleast r hr).lt_of_ne'⟩
  rw [herase, Finset.card_erase_add_one hq]

/-- R81: the first shown position has all others above it. -/
theorem shownCount_eq_shownAbove_firstShown (d : DigitFile) : shownCount d = shownAbove d d.firstShown + 1 := by
  obtain ⟨hshown, -⟩ := firstShown_eq_iff.mp (rfl : d.firstShown = d.firstShown)
  rw [shownCount_eq_card, shownAbove]
  exact card_eq_card_filter_lt_add_one (by simpa) fun r hr => firstShown_le_of_shown (by simpa using hr)

/-- R81: going on to the next shown position leaves one fewer above. -/
theorem shownAbove_of_nextShown_eq_some (hnext : d.nextShown p = some q) : shownAbove d p = shownAbove d q + 1 := by
  obtain ⟨habove, hshown, -⟩ := nextShown_eq_some_iff.mp hnext
  have hfilter : ((shownPositions d).filter (p < ·)).filter (q < ·) = (shownPositions d).filter (q < ·) := by
    rw [Finset.filter_filter]
    exact Finset.filter_congr fun r _ => ⟨And.right, fun hr => ⟨habove.trans hr, hr⟩⟩
  rw [shownAbove, shownAbove, ← hfilter]
  refine card_eq_card_filter_lt_add_one (by simp [habove, hshown]) fun r hr => ?_
  obtain ⟨hr, hpr⟩ := Finset.mem_filter.mp hr
  obtain ⟨q', hnext', -, hle⟩ := exists_nextShown_le_of_shown hpr (mem_shownPositions.mp hr)
  rwa [Option.some.inj (hnext.symm.trans hnext')]

theorem shownAbove_of_nextShown_eq_none (hnext : d.nextShown p = none) : shownAbove d p = 0 := by
  rw [shownAbove, Finset.card_eq_zero, Finset.filter_eq_empty_iff]
  intro q hq hlt
  simp [nextShown_eq_none_iff.mp hnext q hlt] at hq

/-- R80, R86: the tens and ones of both banks are always shown, and there are eight positions. -/
theorem shownCount_mem_Icc (d : DigitFile) : 4 ≤ shownCount d ∧ shownCount d ≤ 8 := by
  constructor
  · rw [shownCount_eq_card]
    change ({2, 3, 6, 7} : Finset Position).card ≤ _
    refine Finset.card_le_card fun p hp => ?_
    rw [mem_shownPositions]
    simp only [Finset.mem_insert, Finset.mem_singleton] at hp
    rcases hp with rfl | rfl | rfl | rfl <;> rfl
  · exact List.length_filter_le _ allPositions

end count

/-- How many clocks without RESET pass before the next drain (R84, R85). -/
def Mux.clocksLeft (m : Mux) (cfg : Config) : Nat :=
  match m.phase with
  | .drain => 0
  | .setup => m.timer + 1 + cfg.dwellTicks + shownAbove m.digits m.pos * (cfg.setupTicks + cfg.dwellTicks)
  | .dwell => m.timer + 1 + shownAbove m.digits m.pos * (cfg.setupTicks + cfg.dwellTicks)

section refresh
variable {m : Mux} {cfg : Config} {s : State}

theorem clocksLeft_of_drain (hphase : m.phase = .drain) : m.clocksLeft cfg = 0 := by
  rw [Mux.clocksLeft, hphase]

theorem clocksLeft_of_setup (hphase : m.phase = .setup) : m.clocksLeft cfg =
    m.timer + 1 + cfg.dwellTicks + shownAbove m.digits m.pos * (cfg.setupTicks + cfg.dwellTicks) := by
  rw [Mux.clocksLeft, hphase]

theorem clocksLeft_of_dwell (hphase : m.phase = .dwell) : m.clocksLeft cfg =
    m.timer + 1 + shownAbove m.digits m.pos * (cfg.setupTicks + cfg.dwellTicks) := by
  rw [Mux.clocksLeft, hphase]

theorem clocksLeft_eq_zero_iff : m.clocksLeft cfg = 0 ↔ m.phase = .drain := by
  cases hphase : m.phase with
  | drain => simp [clocksLeft_of_drain hphase]
  | setup => simp [clocksLeft_of_setup hphase]
  | dwell => simp [clocksLeft_of_dwell hphase]

/-- A strobe takes its setup and its dwell, and so does each one above it. -/
theorem clocksLeft_strobe (hpos : PositiveTicks cfg) (m : Mux) (p : Position) :
    (m.strobe cfg p).clocksLeft cfg = (shownAbove m.digits p + 1) * (cfg.setupTicks + cfg.dwellTicks) := by
  have hsetup := hpos.setup
  rw [clocksLeft_of_setup (muxStrobe_phase m cfg p), muxStrobe_timer, muxStrobe_digits, muxStrobe_pos, Nat.succ_mul]
  omega

theorem clocksLeft_setup (hpos : PositiveTicks cfg) (hphase : m.phase = .setup) :
    (m.setup cfg).clocksLeft cfg + 1 = m.clocksLeft cfg := by
  have hdwell := hpos.dwell
  rw [clocksLeft_of_setup hphase]
  rcases muxSetup_cases m cfg with ⟨htimer, hm⟩ | ⟨htimer, hm⟩ <;> rw [hm]
  · rw [clocksLeft_of_setup (m := { m with timer := m.timer - 1 }) hphase]
    dsimp only
    omega
  · rw [clocksLeft_of_dwell rfl]
    dsimp only
    omega

theorem clocksLeft_dwell (hpos : PositiveTicks cfg) (hphase : m.phase = .dwell) :
    (m.dwell cfg).clocksLeft cfg + 1 = m.clocksLeft cfg := by
  rw [clocksLeft_of_dwell hphase]
  rcases muxDwell_cases m cfg with ⟨htimer, hm⟩ | ⟨htimer, q, hnext, hm⟩ | ⟨htimer, hnext, hm⟩ <;> rw [hm]
  · rw [clocksLeft_of_dwell (m := { m with timer := m.timer - 1 }) hphase]
    dsimp only
    omega
  · rw [clocksLeft_strobe hpos, htimer, shownAbove_of_nextShown_eq_some hnext]
    omega
  · rw [clocksLeft_of_drain rfl, htimer, shownAbove_of_nextShown_eq_none hnext, Nat.zero_mul]

theorem clocksLeft_muxAfter (hpos : PositiveTicks s.cfg) (hphase : s.mx.phase ≠ .drain) :
    (muxAfter s).clocksLeft s.cfg + 1 = s.mx.clocksLeft s.cfg := by
  cases h : s.mx.phase with
  | drain => exact absurd h hphase
  | setup =>
    rw [muxAfter_of_setup h]
    exact clocksLeft_setup hpos h
  | dwell =>
    rw [muxAfter_of_dwell h]
    exact clocksLeft_dwell hpos h

/-- The display of the digits `d` has `n` clocks to go to the next drain. -/
structure Refreshing (cfg : Config) (d : DigitFile) (n : Nat) (s : State) : Prop where
  cfgEq : s.cfg = cfg
  digits : s.mx.digits = d
  left : s.mx.clocksLeft cfg = n

theorem Refreshing.clock {d : DigitFile} {n : Nat} {t : State} (hpos : PositiveTicks cfg) (hclock : RunningClock s t)
    (h : Refreshing cfg d (n + 1) s) : Refreshing cfg d n t := by
  obtain ⟨rfl, rfl, hleft⟩ := h
  have hphase : s.mx.phase ≠ .drain := by
    rw [ne_eq, ← clocksLeft_eq_zero_iff (cfg := s.cfg), hleft]
    exact n.succ_ne_zero
  have hcount := clocksLeft_muxAfter hpos hphase
  refine ⟨hclock.cfg, ?_, ?_⟩
  · rw [hclock.mx, muxAfter_digits_of_phase_ne hphase]
  · rw [hclock.mx]
    omega

/-- R83: after the drain the cycle has `N(D)` strobes to go. -/
theorem refreshing_of_drain {u : State} (hpos : PositiveTicks s.cfg) (hphase : s.mx.phase = .drain)
    (hclock : RunningClock s u) :
    Refreshing s.cfg u.mx.digits (shownCount u.mx.digits * (s.cfg.setupTicks + s.cfg.dwellTicks)) u := by
  refine ⟨hclock.cfg, rfl, ?_⟩
  rw [hclock.mx, muxAfter_of_drain hphase, Mux.drain, clocksLeft_strobe hpos, muxStrobe_digits,
    shownCount_eq_shownAbove_firstShown]

end refresh

/-- Settles O24: one clock drains, and the clocks left from there count down to the next drain and not below. -/
theorem refreshCycleLength : Obligations.RefreshCycleLength := by
  unfold Obligations.RefreshCycleLength
  intro s u hquiet hwf hphase hstep hrst
  obtain ⟨hatLeast, hatMost⟩ := shownCount_mem_Icc u.mx.digits
  have hpos := positiveTicks_of_wf hwf
  have hrst : QuietFor (shownCount u.mx.digits * (s.cfg.setupTicks + s.cfg.dwellTicks) + 1) s :=
    fun k v hk => hrst k v (by omega)
  have hstart := refreshing_of_drain hpos hphase (runningClock_of_step hquiet hrst.rst hstep)
  have hafter {k n : Nat} (hsum : n + k = shownCount u.mx.digits * (s.cfg.setupTicks + s.cfg.dwellTicks)) :
      ∃ v, Host.Core.run core (k + 1) s = .next v ∧ Refreshing s.cfg u.mx.digits n v := by
    obtain ⟨v, hrun, -, hv⟩ := exists_run_of_quiet_countdown (P := Refreshing s.cfg u.mx.digits)
      (fun _ _ _ hclock h => h.clock hpos hclock) (clock_ops hquiet hstep) (hsum ▸ hrst.step hstep)
      (hsum ▸ hstart)
    exact ⟨v, (run_succ_of_step_eq_next hstep k).trans hrun, hv⟩
  refine ⟨hatLeast, hatMost, ?_, fun k hk hlt => ?_⟩
  · obtain ⟨t, hrun, ht⟩ := hafter (Nat.zero_add _)
    exact ⟨t, Nat.add_comm 1 _ ▸ hrun, clocksLeft_eq_zero_iff.mp ht.left, ht.digits⟩
  · obtain ⟨k, rfl⟩ := Nat.exists_eq_add_of_lt hk
    obtain ⟨n, hn⟩ := Nat.exists_eq_add_of_lt hlt
    obtain ⟨v, hrun, hv⟩ := hafter (k := k) (n := n + 1) (by omega)
    refine ⟨v, by simpa using hrun, fun hdrain => ?_, hv.digits⟩
    have hleft := hv.left
    simp [clocksLeft_of_drain hdrain] at hleft

end Sys2Proof.Machine
end

section
/-! SUPPORT. Countdowns of the scanner: the gap between two row strobes (R100) and the length of a scan cycle (R99). -/

namespace Sys2Proof.Machine

open Sys2Proof

section sequencer
variable (sc : Scanner) (cfg : Config)

@[simp] theorem scannerEval1_phase : sc.eval1.phase = .eval2 := rfl
@[simp] theorem scannerEval1_row : sc.eval1.row = sc.row := edge_row sc _ _
@[simp] theorem scannerEval2_phase : (sc.eval2 cfg).phase = .settle := rfl
@[simp] theorem scannerEval2_row : (sc.eval2 cfg).row = sc.row := edge_row sc _ _
@[simp] theorem scannerEval2_timer : (sc.eval2 cfg).timer = cfg.settleTicks - 1 := rfl
@[simp] theorem scannerDirect_phase (level : Bool) : (sc.direct cfg level).phase = .rowOn := rfl

end sequencer

/-- The clocks that R100 adds to the gap after a row: the last row is followed by the idle time and DIRECT. -/
def gapAfterRow (cfg : Config) (r : Row) : Nat := if r.val < 4 then 0 else cfg.scanIdleTicks + 1

/-- How many clocks without RESET pass before the next row strobe (R95 to R98). -/
def Scanner.gapLeft (sc : Scanner) (cfg : Config) : Nat :=
  match sc.phase with
  | .rowOn => 0
  | .eval1 => 2 + cfg.settleTicks + gapAfterRow cfg sc.row
  | .eval2 => 1 + cfg.settleTicks + gapAfterRow cfg sc.row
  | .settle => sc.timer + 1 + gapAfterRow cfg sc.row
  | .idle => sc.timer + 2
  | .direct => 1

section gap
variable {sc : Scanner} {cfg : Config} {s t : State} {n : Nat}

theorem gapLeft_eq_zero_iff : sc.gapLeft cfg = 0 ↔ sc.phase = .rowOn := by
  cases hphase : sc.phase <;> simp [Scanner.gapLeft, hphase]

theorem gapLeft_settle (hphase : sc.phase = .settle) : (sc.settle cfg).gapLeft cfg + 1 = sc.gapLeft cfg := by
  rcases scannerSettle_cases sc cfg with ⟨htimer, h⟩ | ⟨htimer, r, hrow, -, h⟩ | ⟨htimer, hrow, hidle, h⟩ |
    ⟨htimer, hrow, hidle, h⟩ <;> rw [h]
  · simp only [Scanner.gapLeft, noEvent_phase, noEvent_row, hphase]
    omega
  · simp [Scanner.gapLeft, hphase, htimer, gapAfterRow, hrow]
  · simp only [Scanner.gapLeft, hphase, htimer, gapAfterRow, hrow, lt_irrefl, if_false]
    omega
  · simp [Scanner.gapLeft, hphase, htimer, gapAfterRow, hrow, hidle]

theorem gapLeft_idle (hphase : sc.phase = .idle) : sc.idle.gapLeft cfg + 1 = sc.gapLeft cfg := by
  rcases scannerIdle_cases sc with ⟨htimer, h⟩ | ⟨htimer, h⟩ <;> rw [h]
  · simp only [Scanner.gapLeft, noEvent_phase, hphase]
    omega
  · simp [Scanner.gapLeft, hphase, htimer]

theorem gapLeft_eval2 (hpos : PositiveTicks cfg) (hphase : sc.phase = .eval2) :
    (sc.eval2 cfg).gapLeft cfg + 1 = sc.gapLeft cfg := by
  have hsettle := hpos.settle
  simp only [Scanner.gapLeft, hphase, scannerEval2_phase, scannerEval2_timer, scannerEval2_row]
  omega

theorem gapLeft_scannerAfter (hpos : PositiveTicks s.cfg) (hphase : s.sc.phase ≠ .rowOn) (x : Input) :
    (scannerAfter s x).gapLeft s.cfg + 1 = s.sc.gapLeft s.cfg := by
  cases h : s.sc.phase with
  | direct =>
    rw [scannerAfter_of_direct x h]
    simp [Scanner.gapLeft, h]
  | rowOn => exact absurd h hphase
  | eval1 =>
    rw [scannerAfter_of_eval1 x h]
    simp only [Scanner.gapLeft, h, scannerEval1_phase, scannerEval1_row]
    omega
  | eval2 =>
    rw [scannerAfter_of_eval2 x h]
    exact gapLeft_eval2 hpos h
  | settle =>
    rw [scannerAfter_of_settle x h]
    exact gapLeft_settle h
  | idle =>
    rw [scannerAfter_of_idle x h]
    exact gapLeft_idle h

/-- The scanner has `n` clocks to go to the next row strobe. -/
structure BetweenRows (cfg : Config) (n : Nat) (s : State) : Prop where
  cfgEq : s.cfg = cfg
  left : s.sc.gapLeft cfg = n

theorem BetweenRows.phase_ne (h : BetweenRows cfg (n + 1) s) : s.sc.phase ≠ .rowOn := by
  rw [ne_eq, ← gapLeft_eq_zero_iff (cfg := cfg), h.left]
  exact n.succ_ne_zero

theorem BetweenRows.clock (hpos : PositiveTicks cfg) (hclock : RunningClock s t) (h : BetweenRows cfg (n + 1) s) :
    BetweenRows cfg n t := by
  have hphase := h.phase_ne
  obtain ⟨rfl, hleft⟩ := h
  have hcount := gapLeft_scannerAfter hpos hphase s.input
  exact ⟨hclock.cfg, by rw [hclock.sc]; omega⟩

/-- R94: a strobe ends into EVAL1, with the columns latched. -/
theorem scannerRowOn_of_phase_ne {col : Columns} (hphase : sc.phase = .rowOn) (hends : (sc.rowOn col).phase ≠ .rowOn) :
    sc.rowOn col = { sc.noEvent with colSample := col, phase := .eval1 } := by
  rcases scannerRowOn_cases sc col with ⟨-, h⟩ | ⟨-, h⟩
  · exact absurd (by rw [h]; exact hphase) hends
  · exact h

end gap

/-- Settles O36: the strobe ends into EVAL1, from where the gap is counted down. -/
theorem rowsStayLowBetweenStrobes : Obligations.RowsStayLowBetweenStrobes := by
  unfold Obligations.RowsStayLowBetweenStrobes
  intro s u gap hquiet hwf hphase hrst hstep hfell hgap hrstRun k hk
  have hclock := runningClock_of_step hquiet hrst hstep
  have hsc : u.sc = { s.sc.noEvent with colSample := s.input.col, phase := .eval1 } := by
    rw [hclock.sc, scannerAfter_of_rowOn _ hphase] at hfell ⊢
    exact scannerRowOn_of_phase_ne hphase hfell
  have hstart : BetweenRows s.cfg gap u := by
    refine ⟨hclock.cfg, ?_⟩
    have hnumber : Row.number s.sc.row < 5 ↔ s.sc.row.val < 4 := Nat.succ_lt_succ_iff
    simp only [hsc, hgap, hnumber, Scanner.gapLeft, noEvent_row, gapAfterRow]
    by_cases hrow : s.sc.row.val < 4
    · rw [if_pos hrow, if_pos hrow, Nat.add_zero]
    · rw [if_neg hrow, if_neg hrow]
      omega
  obtain ⟨n, hn⟩ := Nat.exists_eq_add_of_lt hk
  have hsum : gap = n + 1 + k := by omega
  obtain ⟨v, hrun, -, hv⟩ := exists_run_of_quiet_countdown (P := BetweenRows s.cfg)
    (fun _ _ _ hclock h => h.clock (positiveTicks_of_wf hwf) hclock) hclock.ops (hsum ▸ hrstRun) (hsum ▸ hstart)
  exact ⟨v, hrun, out_row_eq_false_of_phase_ne hv.phase_ne⟩

/-- The clocks of one row of a scan cycle (R99). -/
def rowTicks (cfg : Config) : Nat := cfg.rowSetupTicks + 2 + cfg.settleTicks

/-- The clocks of a scan cycle after a row (R99): the rows above it and the idle time. -/
def ticksAfterRow (cfg : Config) (r : Row) : Nat := (4 - r.val) * rowTicks cfg + cfg.scanIdleTicks

/-- How many clocks without RESET pass before the next DIRECT (R94 to R98). -/
def Scanner.scanLeft (sc : Scanner) (cfg : Config) : Nat :=
  match sc.phase with
  | .direct => 0
  | .rowOn => sc.timer + 3 + cfg.settleTicks + ticksAfterRow cfg sc.row
  | .eval1 => 2 + cfg.settleTicks + ticksAfterRow cfg sc.row
  | .eval2 => 1 + cfg.settleTicks + ticksAfterRow cfg sc.row
  | .settle => sc.timer + 1 + ticksAfterRow cfg sc.row
  | .idle => sc.timer + 1

section scan
variable {sc : Scanner} {cfg : Config} {s t : State} {n : Nat} {r : Row}

theorem ticksAfterRow_of_next {q : Row} (hq : q.val < 4) (hr : r.val = q.val + 1) :
    ticksAfterRow cfg q = ticksAfterRow cfg r + rowTicks cfg := by
  have hrows : 4 - q.val = 4 - r.val + 1 := by omega
  rw [ticksAfterRow, ticksAfterRow, hrows, Nat.succ_mul]
  omega

theorem ticksAfterRow_last (hr : r.val = 4) : ticksAfterRow cfg r = cfg.scanIdleTicks := by
  simp [ticksAfterRow, hr]

theorem scanLeft_eq_zero_iff : sc.scanLeft cfg = 0 ↔ sc.phase = .direct := by
  cases hphase : sc.phase <;> simp [Scanner.scanLeft, hphase]

/-- A row that starts takes all its clocks. -/
theorem scanLeft_strobe (hpos : PositiveTicks cfg) (sc : Scanner) (r : Row) :
    (sc.strobe cfg r).scanLeft cfg = rowTicks cfg + ticksAfterRow cfg r := by
  have hrow := hpos.row
  simp only [Scanner.scanLeft, scannerStrobe_phase, scannerStrobe_timer, scannerStrobe_row, rowTicks]
  omega

theorem scanLeft_rowOn (col : Columns) (hphase : sc.phase = .rowOn) :
    (sc.rowOn col).scanLeft cfg + 1 = sc.scanLeft cfg := by
  rcases scannerRowOn_cases sc col with ⟨htimer, h⟩ | ⟨htimer, h⟩ <;> rw [h]
  · simp only [Scanner.scanLeft, noEvent_phase, noEvent_row, hphase]
    omega
  · simp only [Scanner.scanLeft, noEvent_row, hphase]
    omega

theorem scanLeft_eval2 (hpos : PositiveTicks cfg) (hphase : sc.phase = .eval2) :
    (sc.eval2 cfg).scanLeft cfg + 1 = sc.scanLeft cfg := by
  have hsettle := hpos.settle
  simp only [Scanner.scanLeft, hphase, scannerEval2_phase, scannerEval2_timer, scannerEval2_row]
  omega

theorem scanLeft_settle (hpos : PositiveTicks cfg) (hphase : sc.phase = .settle) :
    (sc.settle cfg).scanLeft cfg + 1 = sc.scanLeft cfg := by
  rcases scannerSettle_cases sc cfg with ⟨htimer, h⟩ | ⟨htimer, r, hrow, hnext, h⟩ | ⟨htimer, hrow, hidle, h⟩ |
    ⟨htimer, hrow, hidle, h⟩ <;> rw [h]
  · simp only [Scanner.scanLeft, noEvent_phase, noEvent_row, hphase]
    omega
  · rw [scanLeft_strobe hpos]
    simp only [Scanner.scanLeft, hphase, htimer, ticksAfterRow_of_next hrow hnext]
    omega
  · simp only [Scanner.scanLeft, hphase, htimer, ticksAfterRow_last hrow]
    omega
  · simp only [Scanner.scanLeft, hphase, htimer, ticksAfterRow_last hrow, hidle]

theorem scanLeft_idle (hphase : sc.phase = .idle) : sc.idle.scanLeft cfg + 1 = sc.scanLeft cfg := by
  rcases scannerIdle_cases sc with ⟨htimer, h⟩ | ⟨htimer, h⟩ <;> rw [h]
  · simp only [Scanner.scanLeft, noEvent_phase, hphase]
    omega
  · simp only [Scanner.scanLeft, hphase, htimer]

theorem scanLeft_scannerAfter (hpos : PositiveTicks s.cfg) (hphase : s.sc.phase ≠ .direct) (x : Input) :
    (scannerAfter s x).scanLeft s.cfg + 1 = s.sc.scanLeft s.cfg := by
  cases h : s.sc.phase with
  | direct => exact absurd h hphase
  | rowOn =>
    rw [scannerAfter_of_rowOn x h]
    exact scanLeft_rowOn x.col h
  | eval1 =>
    rw [scannerAfter_of_eval1 x h]
    simp only [Scanner.scanLeft, h, scannerEval1_phase, scannerEval1_row]
    omega
  | eval2 =>
    rw [scannerAfter_of_eval2 x h]
    exact scanLeft_eval2 hpos h
  | settle =>
    rw [scannerAfter_of_settle x h]
    exact scanLeft_settle hpos h
  | idle =>
    rw [scannerAfter_of_idle x h]
    exact scanLeft_idle h

/-- While a row is scanned, the clocks left are those after the row and some, not all, of its own. -/
theorem scanLeft_bounds (hsc : ScannerTimed cfg sc) :
    sc.scanLeft cfg ≤ cfg.scanIdleTicks ∨
      ticksAfterRow cfg sc.row < sc.scanLeft cfg ∧ sc.scanLeft cfg ≤ ticksAfterRow cfg sc.row + rowTicks cfg := by
  rw [ScannerTimed] at hsc
  cases hphase : sc.phase with
  | direct => exact .inl (by simp [Scanner.scanLeft, hphase])
  | idle =>
    rw [hphase] at hsc
    left
    rw [Scanner.scanLeft, hphase]
    exact hsc
  | rowOn | eval1 | eval2 | settle =>
    rw [hphase] at hsc
    right
    simp only [Scanner.scanLeft, hphase, rowTicks, ScPhase.ticks] at hsc ⊢
    omega

/-- The clocks left tell the row that is scanned. -/
theorem row_eq_of_scanLeft (hsc : ScannerTimed cfg sc) (hlower : ticksAfterRow cfg r < sc.scanLeft cfg)
    (hupper : sc.scanLeft cfg ≤ ticksAfterRow cfg r + rowTicks cfg) : sc.row = r := by
  have hrows : ∀ p q : Row, ticksAfterRow cfg p < ticksAfterRow cfg q + rowTicks cfg → q ≤ p := by
    intro p q hlt
    simp only [ticksAfterRow] at hlt
    have hmul : (4 - p.val) * rowTicks cfg < (4 - q.val + 1) * rowTicks cfg := by
      rw [Nat.succ_mul]
      omega
    have hcount := Nat.lt_of_mul_lt_mul_right hmul
    exact Fin.le_def.mpr (by omega)
  have hidle : cfg.scanIdleTicks ≤ ticksAfterRow cfg r := Nat.le_add_left _ _
  rcases scanLeft_bounds hsc with hle | ⟨hlower', hupper'⟩
  · omega
  · exact le_antisymm (hrows _ _ (hlower.trans_le hupper')) (hrows _ _ (hlower'.trans_le hupper))

/-- Past its strobe a row has fewer clocks left than in any clock of the strobe. -/
theorem scanLeft_le_of_phase_ne (hsc : ScannerTimed cfg sc) (hphase : sc.phase ≠ .rowOn) :
    sc.scanLeft cfg ≤ 2 + cfg.settleTicks + ticksAfterRow cfg sc.row := by
  have hidle : cfg.scanIdleTicks ≤ ticksAfterRow cfg sc.row := Nat.le_add_left _ _
  rw [ScannerTimed] at hsc
  cases h : sc.phase with
  | rowOn => exact absurd h hphase
  | direct | eval1 | eval2 | settle | idle =>
    rw [h] at hsc
    simp only [Scanner.scanLeft, h, ScPhase.ticks] at hsc ⊢
    omega

/-- The clocks left tell the last clock of a row's strobe. -/
theorem rowOn_of_scanLeft (hpos : PositiveTicks cfg) (hsc : ScannerTimed cfg sc)
    (hleft : sc.scanLeft cfg = 3 + cfg.settleTicks + ticksAfterRow cfg r) :
    sc.phase = .rowOn ∧ sc.row = r ∧ sc.timer = 0 := by
  have hsetup := hpos.row
  have hrow : sc.row = r := row_eq_of_scanLeft hsc (by omega) (by rw [hleft, rowTicks]; omega)
  have hphase : sc.phase = .rowOn := by
    by_contra hphase
    have hle := scanLeft_le_of_phase_ne hsc hphase
    rw [hrow] at hle
    omega
  refine ⟨hphase, hrow, ?_⟩
  simp only [Scanner.scanLeft, hphase, hrow] at hleft
  omega

/-- The scanner has `n` clocks to go to the next DIRECT. -/
structure Scanning (cfg : Config) (n : Nat) (s : State) : Prop where
  cfgEq : s.cfg = cfg
  timed : ScannerTimed cfg s.sc
  left : s.sc.scanLeft cfg = n

theorem Scanning.phase_ne (h : Scanning cfg (n + 1) s) : s.sc.phase ≠ .direct := by
  rw [ne_eq, ← scanLeft_eq_zero_iff (cfg := cfg), h.left]
  exact n.succ_ne_zero

theorem Scanning.clock (hpos : PositiveTicks cfg) (hclock : RunningClock s t) (h : Scanning cfg (n + 1) s) :
    Scanning cfg n t := by
  have hphase := h.phase_ne
  obtain ⟨rfl, htimed, hleft⟩ := h
  have hcount := scanLeft_scannerAfter hpos hphase s.input
  refine ⟨hclock.cfg, ?_, ?_⟩
  · rw [hclock.sc]
    exact htimed.scannerAfter hpos s.input
  · rw [hclock.sc]
    omega

/-- R93: after DIRECT the cycle has all five rows and the idle time to go. -/
theorem scanning_of_direct (hpos : PositiveTicks s.cfg) (hphase : s.sc.phase = .direct) (hclock : RunningClock s t) :
    Scanning s.cfg (rowTicks s.cfg + ticksAfterRow s.cfg 0) t := by
  have hsc := hclock.sc.trans (scannerAfter_of_direct s.input hphase)
  exact ⟨hclock.cfg, hsc ▸ scannerTimed_strobe hpos 0, hsc ▸ scanLeft_strobe hpos _ 0⟩

/-- R94: the last clock of a strobe latches the columns. -/
theorem latches_of_rowOn (hclock : RunningClock s t) (hphase : s.sc.phase = .rowOn) (htimer : s.sc.timer = 0) :
    t.sc.phase = .eval1 ∧ t.sc.colSample = s.input.col := by
  rw [hclock.sc, scannerAfter_of_rowOn _ hphase, scannerRowOn_of_timer_eq_zero htimer]
  exact ⟨rfl, rfl⟩

end scan

/-- Settles O37: one clock samples the direct button, and the clocks left from there count down to the next DIRECT; on
the way they pass the number that tells the last clock of each row's strobe. -/
theorem scanCycleLength : Obligations.ScanCycleLength := by
  unfold Obligations.ScanCycleLength
  intro s length hquiet hwf hphase hlength hrst
  have hpos := positiveTicks_of_wf hwf
  obtain ⟨total, htotal⟩ : ∃ total, total = rowTicks s.cfg + ticksAfterRow s.cfg 0 := ⟨_, rfl⟩
  have hlength' : length = total + 1 := by
    simp only [rowTicks, ticksAfterRow, Fin.val_zero] at htotal
    omega
  subst hlength'
  obtain ⟨u, hstep, hclock⟩ := exists_runningClock hquiet (QuietFor.rst hrst)
  have hstart : Scanning s.cfg total u := htotal ▸ scanning_of_direct hpos hphase hclock
  have hafter {k n : Nat} (hsum : n + k = total) :
      ∃ v, Host.Core.run core (k + 1) s = .next v ∧ v.ops = [] ∧ Scanning s.cfg n v := by
    obtain ⟨v, hrun, hvquiet, hv⟩ := exists_run_of_quiet_countdown (P := Scanning s.cfg)
      (fun _ _ _ hclock h => h.clock hpos hclock) hclock.ops (hsum ▸ QuietFor.step hrst hstep) (hsum ▸ hstart)
    exact ⟨v, (run_succ_of_step_eq_next hstep k).trans hrun, hvquiet, hv⟩
  refine ⟨?_, fun k hk hlt => ?_, fun r => ?_⟩
  · obtain ⟨t, hrun, -, ht⟩ := hafter (Nat.zero_add total)
    exact ⟨t, hrun, scanLeft_eq_zero_iff.mp ht.left⟩
  · obtain ⟨k, rfl⟩ := Nat.exists_eq_add_of_lt hk
    obtain ⟨n, hn⟩ := Nat.exists_eq_add_of_lt hlt
    obtain ⟨v, hrun, -, hv⟩ := hafter (k := k) (n := n + 1) (by omega)
    exact ⟨v, by simpa using hrun, hv.phase_ne⟩
  · have hle : 3 + s.cfg.settleTicks + ticksAfterRow s.cfg r ≤ total := by
      have hsetup := hpos.row
      have hrows : ticksAfterRow s.cfg r ≤ ticksAfterRow s.cfg 0 :=
        Nat.add_le_add_right (Nat.mul_le_mul_right _ (Nat.sub_le_sub_left (Nat.zero_le _) 4)) _
      rw [htotal, rowTicks]
      omega
    obtain ⟨k, hk⟩ := Nat.exists_eq_add_of_le hle
    obtain ⟨v, hrun, hvquiet, hv⟩ := hafter hk.symm
    obtain ⟨hphase, rfl, htimer⟩ := rowOn_of_scanLeft hpos hv.timed hv.left
    have hlt : k + 1 < total + 1 := by omega
    obtain ⟨w, hstep, hclock⟩ := exists_runningClock hvquiet (hrst (k + 1) v hlt hrun)
    exact ⟨k + 1, v, hlt, hrun, out_row_eq_true_iff.mpr ⟨hphase, rfl⟩, w, hstep,
      latches_of_rowOn hclock hphase htimer⟩

end Sys2Proof.Machine
end
